-- ==== Sys2Proof/Word.lean ====
section
/-! DEFINITION. The value types of the block (00_scope.md R12, R13): u8, u16, u32 and the four-byte
pattern that the framer's window is compared with. All values are unsigned. -/

namespace Sys2Proof

/-- `u8` of rule R12: a wire byte, a chain address, a logical byte. -/
abbrev Byte := BitVec 8

/-- `u16` of rule R12: a packet id or a command code. -/
abbrev U16 := BitVec 16

/-- `u32` of rule R12: a time in milliseconds (R15). -/
abbrev U32 := BitVec 32

/-- Four bytes in transmission order, `b0` the oldest: a start or end pattern (SYNC_LEN = 4, R9) or a
framer's window (`win[3]` the newest, R40). -/
structure Pattern where
  b0 : Byte
  b1 : Byte
  b2 : Byte
  b3 : Byte
deriving DecidableEq, Repr

/-- `reverse(s)` of rule R12 on four bytes. -/
def Pattern.reverse (p : Pattern) : Pattern := ⟨p.b3, p.b2, p.b1, p.b0⟩

/-- The four bytes as a byte sequence, in transmission order. -/
def Pattern.toList (p : Pattern) : List Byte := [p.b0, p.b1, p.b2, p.b3]

/-- `[win[1], win[2], win[3], b]`, the sliding of rule R152. -/
def Pattern.slide (p : Pattern) (b : Byte) : Pattern := ⟨p.b1, p.b2, p.b3, b⟩

end Sys2Proof
end

