-- ==== Sys2Proof/Syntax.lean ====
section
/-! DEFINITION. The instructions of the block: the 28 chain commands of spec/opcode_table.json
(30_encoding.md R131), each carrying the rest of the logical packet that brought it (00_scope.md R17). -/

namespace Sys2Proof

/-- The command names of rule R131, in the order of their reference codes. -/
inductive CmdName where
  /-- RESET (R220). -/
  | reset
  /-- ASSIGN_ADDRESS (R222). -/
  | assignAddress
  /-- ENABLE_PROPAGATION (R223). -/
  | enablePropagation
  /-- SET_CHAIN_LENGTH (R224). -/
  | setChainLength
  /-- START_BUS_MODE (R225). -/
  | startBusMode
  /-- END_BUS_MODE (R226). -/
  | endBusMode
  /-- ANNOUNCE (R228, R343). -/
  | announce
  /-- PROBE (R227). -/
  | probe
  /-- PROBE_RESPONSE (R229, R322). -/
  | probeResponse
  /-- TERMINATOR_ANNOUNCE (R231, R340). -/
  | terminatorAnnounce
  /-- ACK (R236, R322). -/
  | ack
  /-- PANIC (R235, R341). -/
  | panic
  /-- READY_STATUS (R290, R342). -/
  | readyStatus
  /-- TOUCH_STATE (R287, R342). -/
  | touchState
  /-- SET_BRIGHTNESS (R270). -/
  | setBrightness
  /-- SET_DISPLAY_COLORS (R271). -/
  | setDisplayColors
  /-- SET_BACKGROUND_COLORS (R272). -/
  | setBackgroundColors
  /-- SET_BACKLIGHT (R273). -/
  | setBacklight
  /-- SET_GRADIENT (R274). -/
  | setGradient
  /-- SET_TRANSITION_TYPE (R275). -/
  | setTransitionType
  /-- SET_TRANSITION_DURATION (R276). -/
  | setTransitionDuration
  /-- SET_TRANSITION_INTERPOLATION (R277). -/
  | setTransitionInterpolation
  /-- SET_FRAME_BLENDING (R278). -/
  | setFrameBlending
  /-- SET_CHARACTER (R279). -/
  | setCharacter
  /-- SHOW (R280). -/
  | showCmd
  /-- TOUCH_READ (R281). -/
  | touchRead
  /-- CALIBRATE_TOUCH (R282). -/
  | calibrateTouch
  /-- SAVE_CONFIG (R283). -/
  | saveConfig
deriving DecidableEq, Repr

/-- Every command name, in the order of rule R131. -/
def CmdName.all : List CmdName :=
  [.reset, .assignAddress, .enablePropagation, .setChainLength,
   .startBusMode, .endBusMode, .announce, .probe,
   .probeResponse, .terminatorAnnounce, .ack, .panic,
   .readyStatus, .touchState, .setBrightness, .setDisplayColors,
   .setBackgroundColors, .setBacklight, .setGradient, .setTransitionType,
   .setTransitionDuration, .setTransitionInterpolation, .setFrameBlending, .setCharacter,
   .showCmd, .touchRead, .calibrateTouch, .saveConfig]

/-- A logical packet less its command code (R17): the operands of every instruction. `ack` is always
false under P2; `data` has at most 255 bytes (`Body.wf`). -/
structure Body where
  /-- `pid : u16`, the packet id. -/
  pid : U16
  /-- `origin : u8`, the sender's address (R200). -/
  origin : Byte
  /-- `dest : u8`, the destination address (R200). -/
  dest : Byte
  /-- `first_hop : u8` (R199); read only by the commander's PANIC handling (R341). -/
  firstHop : Byte
  /-- `ack : bool`, P1 `flags` bit 7 (R113). -/
  ack : Bool
  /-- The payload bytes. -/
  data : List Byte
deriving DecidableEq, Repr

/-- The logical packet of rule R17: `Body` and the 16-bit command code. -/
structure Packet extends Body where
  /-- `cmd : u16`. -/
  cmd : U16
deriving DecidableEq, Repr

/-- One constructor per row of spec/opcode_table.json. The operands are those of the packet: its header
fields and its payload, whose layout is rule R132. -/
inductive Instr where
  /-- RESET (R220). -/
  | reset (p : Body)
  /-- ASSIGN_ADDRESS (R222). -/
  | assignAddress (p : Body)
  /-- ENABLE_PROPAGATION (R223). -/
  | enablePropagation (p : Body)
  /-- SET_CHAIN_LENGTH (R224). -/
  | setChainLength (p : Body)
  /-- START_BUS_MODE (R225). -/
  | startBusMode (p : Body)
  /-- END_BUS_MODE (R226). -/
  | endBusMode (p : Body)
  /-- ANNOUNCE (R228, R343). -/
  | announce (p : Body)
  /-- PROBE (R227). -/
  | probe (p : Body)
  /-- PROBE_RESPONSE (R229, R322). -/
  | probeResponse (p : Body)
  /-- TERMINATOR_ANNOUNCE (R231, R340). -/
  | terminatorAnnounce (p : Body)
  /-- ACK (R236, R322). -/
  | ack (p : Body)
  /-- PANIC (R235, R341). -/
  | panic (p : Body)
  /-- READY_STATUS (R290, R342). -/
  | readyStatus (p : Body)
  /-- TOUCH_STATE (R287, R342). -/
  | touchState (p : Body)
  /-- SET_BRIGHTNESS (R270). -/
  | setBrightness (p : Body)
  /-- SET_DISPLAY_COLORS (R271). -/
  | setDisplayColors (p : Body)
  /-- SET_BACKGROUND_COLORS (R272). -/
  | setBackgroundColors (p : Body)
  /-- SET_BACKLIGHT (R273). -/
  | setBacklight (p : Body)
  /-- SET_GRADIENT (R274). -/
  | setGradient (p : Body)
  /-- SET_TRANSITION_TYPE (R275). -/
  | setTransitionType (p : Body)
  /-- SET_TRANSITION_DURATION (R276). -/
  | setTransitionDuration (p : Body)
  /-- SET_TRANSITION_INTERPOLATION (R277). -/
  | setTransitionInterpolation (p : Body)
  /-- SET_FRAME_BLENDING (R278). -/
  | setFrameBlending (p : Body)
  /-- SET_CHARACTER (R279). -/
  | setCharacter (p : Body)
  /-- SHOW (R280). -/
  | showCmd (p : Body)
  /-- TOUCH_READ (R281). -/
  | touchRead (p : Body)
  /-- CALIBRATE_TOUCH (R282). -/
  | calibrateTouch (p : Body)
  /-- SAVE_CONFIG (R283). -/
  | saveConfig (p : Body)
deriving DecidableEq, Repr

/-- The command name an instruction stands for. -/
def Instr.name : Instr → CmdName
  | .reset _ => .reset
  | .assignAddress _ => .assignAddress
  | .enablePropagation _ => .enablePropagation
  | .setChainLength _ => .setChainLength
  | .startBusMode _ => .startBusMode
  | .endBusMode _ => .endBusMode
  | .announce _ => .announce
  | .probe _ => .probe
  | .probeResponse _ => .probeResponse
  | .terminatorAnnounce _ => .terminatorAnnounce
  | .ack _ => .ack
  | .panic _ => .panic
  | .readyStatus _ => .readyStatus
  | .touchState _ => .touchState
  | .setBrightness _ => .setBrightness
  | .setDisplayColors _ => .setDisplayColors
  | .setBackgroundColors _ => .setBackgroundColors
  | .setBacklight _ => .setBacklight
  | .setGradient _ => .setGradient
  | .setTransitionType _ => .setTransitionType
  | .setTransitionDuration _ => .setTransitionDuration
  | .setTransitionInterpolation _ => .setTransitionInterpolation
  | .setFrameBlending _ => .setFrameBlending
  | .setCharacter _ => .setCharacter
  | .showCmd _ => .showCmd
  | .touchRead _ => .touchRead
  | .calibrateTouch _ => .calibrateTouch
  | .saveConfig _ => .saveConfig

/-- The operands of an instruction. -/
def Instr.body : Instr → Body
  | .reset p => p
  | .assignAddress p => p
  | .enablePropagation p => p
  | .setChainLength p => p
  | .startBusMode p => p
  | .endBusMode p => p
  | .announce p => p
  | .probe p => p
  | .probeResponse p => p
  | .terminatorAnnounce p => p
  | .ack p => p
  | .panic p => p
  | .readyStatus p => p
  | .touchState p => p
  | .setBrightness p => p
  | .setDisplayColors p => p
  | .setBackgroundColors p => p
  | .setBacklight p => p
  | .setGradient p => p
  | .setTransitionType p => p
  | .setTransitionDuration p => p
  | .setTransitionInterpolation p => p
  | .setFrameBlending p => p
  | .setCharacter p => p
  | .showCmd p => p
  | .touchRead p => p
  | .calibrateTouch p => p
  | .saveConfig p => p

/-- The instruction of a command name with given operands. -/
def CmdName.instr (n : CmdName) (p : Body) : Instr :=
  match n with
  | .reset => .reset p
  | .assignAddress => .assignAddress p
  | .enablePropagation => .enablePropagation p
  | .setChainLength => .setChainLength p
  | .startBusMode => .startBusMode p
  | .endBusMode => .endBusMode p
  | .announce => .announce p
  | .probe => .probe p
  | .probeResponse => .probeResponse p
  | .terminatorAnnounce => .terminatorAnnounce p
  | .ack => .ack p
  | .panic => .panic p
  | .readyStatus => .readyStatus p
  | .touchState => .touchState p
  | .setBrightness => .setBrightness p
  | .setDisplayColors => .setDisplayColors p
  | .setBackgroundColors => .setBackgroundColors p
  | .setBacklight => .setBacklight p
  | .setGradient => .setGradient p
  | .setTransitionType => .setTransitionType p
  | .setTransitionDuration => .setTransitionDuration p
  | .setTransitionInterpolation => .setTransitionInterpolation p
  | .setFrameBlending => .setFrameBlending p
  | .setCharacter => .setCharacter p
  | .showCmd => .showCmd p
  | .touchRead => .touchRead p
  | .calibrateTouch => .calibrateTouch p
  | .saveConfig => .saveConfig p

end Sys2Proof
end

