-- ==== Sys2Proof/Config.lean ====
section
/-! DEFINITION. The configuration of an agent: the fixed values of 00_scope.md R9, the open parameters of
R10 as the fields of one record (fixed before reset, constant afterwards: R45), the reference values of
R10's last column, and the one free value, the PacketIdDraw oracle (R197, D16). -/

namespace Sys2Proof

/-- ADDRESS_COMMANDER = 253 (R9): the commander's address, never a node's. -/
def addrCommander : Byte := 253

/-- ADDRESS_NULL = 254 (R9): `local_address` until assigned. -/
def addrNull : Byte := 254

/-- ADDRESS_BROADCAST = 255 (R9): every node. -/
def addrBroadcast : Byte := 255

/-- MAX_NODE_ADDRESS = 252 (R9, 90_conflicts.md C1): the highest assignable node address. -/
def maxNodeAddress : Byte := 252

/-- ROLE of rule R10: which rules an agent runs (R371). -/
inductive Role where
  | node
  | commander
deriving DecidableEq, Repr

/-- PROFILE of rule R10: P1 full-byte or P2 nibble-padded (R2). -/
inductive Profile where
  | p1
  | p2
deriving DecidableEq, Repr

/-- DISCOVERY_MODE of rule R10 (R210). -/
inductive DiscoveryMode where
  | commander
  | nodeToNode
deriving DecidableEq, Repr

/-- RX_DURING_TX of rule R10 (R90). -/
inductive RxDuringTx where
  | drop
  | accept
deriving DecidableEq, Repr

/-- What an implementation does about the optional event counters of rule R361: none, or counters of a
width in bits that wrap or saturate. -/
inductive CounterPolicy where
  | absent
  | wrapping (width : Nat)
  | saturating (width : Nat)
deriving DecidableEq, Repr

/-- The parameters CMD_N of rule R130, one per command name. -/
structure CmdCodes where
  /-- CMD_RESET. -/
  reset : U16
  /-- CMD_ASSIGN_ADDRESS. -/
  assignAddress : U16
  /-- CMD_ENABLE_PROPAGATION. -/
  enablePropagation : U16
  /-- CMD_SET_CHAIN_LENGTH. -/
  setChainLength : U16
  /-- CMD_START_BUS_MODE. -/
  startBusMode : U16
  /-- CMD_END_BUS_MODE. -/
  endBusMode : U16
  /-- CMD_ANNOUNCE. -/
  announce : U16
  /-- CMD_PROBE. -/
  probe : U16
  /-- CMD_PROBE_RESPONSE. -/
  probeResponse : U16
  /-- CMD_TERMINATOR_ANNOUNCE. -/
  terminatorAnnounce : U16
  /-- CMD_ACK. -/
  ack : U16
  /-- CMD_PANIC. -/
  panic : U16
  /-- CMD_READY_STATUS. -/
  readyStatus : U16
  /-- CMD_TOUCH_STATE. -/
  touchState : U16
  /-- CMD_SET_BRIGHTNESS. -/
  setBrightness : U16
  /-- CMD_SET_DISPLAY_COLORS. -/
  setDisplayColors : U16
  /-- CMD_SET_BACKGROUND_COLORS. -/
  setBackgroundColors : U16
  /-- CMD_SET_BACKLIGHT. -/
  setBacklight : U16
  /-- CMD_SET_GRADIENT. -/
  setGradient : U16
  /-- CMD_SET_TRANSITION_TYPE. -/
  setTransitionType : U16
  /-- CMD_SET_TRANSITION_DURATION. -/
  setTransitionDuration : U16
  /-- CMD_SET_TRANSITION_INTERPOLATION. -/
  setTransitionInterpolation : U16
  /-- CMD_SET_FRAME_BLENDING. -/
  setFrameBlending : U16
  /-- CMD_SET_CHARACTER. -/
  setCharacter : U16
  /-- CMD_SHOW. -/
  showCmd : U16
  /-- CMD_TOUCH_READ. -/
  touchRead : U16
  /-- CMD_CALIBRATE_TOUCH. -/
  calibrateTouch : U16
  /-- CMD_SAVE_CONFIG. -/
  saveConfig : U16
deriving DecidableEq, Repr

/-- The parameters of rule R10, and the implementation's choices about the counters of rule R361. -/
structure Config where
  /-- ROLE. -/
  role : Role
  /-- PROFILE. -/
  profile : Profile
  /-- SYNC_P1. -/
  syncP1 : Pattern
  /-- SYNC_P2; END_P2 is its reverse. -/
  syncP2 : Pattern
  /-- P1_TRAILER: whether a P1 encoder appends `reverse(SYNC_P1)` (R114). -/
  p1Trailer : Bool
  /-- CAP_MAX_P2, at least 20. -/
  capMaxP2 : Nat
  /-- CMD_N for every command name. -/
  codes : CmdCodes
  /-- DISCOVERY_MODE. -/
  discoveryMode : DiscoveryMode
  /-- DISCOVERY_INTERVAL_MS, above 0. -/
  discoveryIntervalMs : U32
  /-- PROBE_TIMEOUT_MULT, at least 1. -/
  probeTimeoutMult : Nat
  /-- ACK_TIMEOUT_MS, above 0. -/
  ackTimeoutMs : U32
  /-- UPSTREAM_GRACE_MS, above 0. -/
  upstreamGraceMs : U32
  /-- ACK_COMMANDS_P2, a set of command names that contains ASSIGN_ADDRESS. -/
  ackCommandsP2 : List CmdName
  /-- FORWARD_COMPLETION (R290). -/
  forwardCompletion : Bool
  /-- TOUCH_STATE_LEN, 0..255 (R63). -/
  touchStateLen : Nat
  /-- TX_FIFO_DEPTH, at least 4 + 16 + 510 + 4. -/
  txFifoDepth : Nat
  /-- RX_DURING_TX. -/
  rxDuringTx : RxDuringTx
  /-- Which PacketIdDraw oracle this agent has: the model's own number, so that two agents' draws are
  not forced to be equal (notes/assumptions/2.md). -/
  drawSource : Nat
  /-- The implementation's event counters (R361). -/
  counterPolicy : CounterPolicy
  /-- The implementation's reset value of every event counter (R361, R390). -/
  counterReset : Nat
deriving DecidableEq, Repr

/-- PacketIdDraw (R10, R197): the `k`-th answer of an agent's oracle. It has no body: nothing is known
of the values, which may repeat (R406). The free value of this model (notes/assumptions/2.md). -/
opaque Config.packetIdDraw (source k : Nat) : U16

/-- CMD_N, the code parameter of a command name (R130). -/
def CmdCodes.code (c : CmdCodes) : CmdName → U16
  | .reset => c.reset
  | .assignAddress => c.assignAddress
  | .enablePropagation => c.enablePropagation
  | .setChainLength => c.setChainLength
  | .startBusMode => c.startBusMode
  | .endBusMode => c.endBusMode
  | .announce => c.announce
  | .probe => c.probe
  | .probeResponse => c.probeResponse
  | .terminatorAnnounce => c.terminatorAnnounce
  | .ack => c.ack
  | .panic => c.panic
  | .readyStatus => c.readyStatus
  | .touchState => c.touchState
  | .setBrightness => c.setBrightness
  | .setDisplayColors => c.setDisplayColors
  | .setBackgroundColors => c.setBackgroundColors
  | .setBacklight => c.setBacklight
  | .setGradient => c.setGradient
  | .setTransitionType => c.setTransitionType
  | .setTransitionDuration => c.setTransitionDuration
  | .setTransitionInterpolation => c.setTransitionInterpolation
  | .setFrameBlending => c.setFrameBlending
  | .setCharacter => c.setCharacter
  | .showCmd => c.showCmd
  | .touchRead => c.touchRead
  | .calibrateTouch => c.calibrateTouch
  | .saveConfig => c.saveConfig

/-- The reference assignment of rule R131: codes 0..27, with 28..33 unassigned. -/
def CmdCodes.reference : CmdCodes where
  reset := 0
  assignAddress := 1
  enablePropagation := 2
  setChainLength := 3
  startBusMode := 4
  endBusMode := 5
  announce := 6
  probe := 7
  probeResponse := 8
  terminatorAnnounce := 9
  ack := 10
  panic := 11
  readyStatus := 12
  touchState := 13
  setBrightness := 14
  setDisplayColors := 15
  setBackgroundColors := 16
  setBacklight := 17
  setGradient := 18
  setTransitionType := 19
  setTransitionDuration := 20
  setTransitionInterpolation := 21
  setFrameBlending := 22
  setCharacter := 23
  showCmd := 24
  touchRead := 25
  calibrateTouch := 26
  saveConfig := 27

/-- The reference pattern `A5 5A C3 3C` of rule R10. -/
def Pattern.reference : Pattern := ⟨0xA5, 0x5A, 0xC3, 0x3C⟩

/-- The reference parameters of rule R10. ROLE, PROFILE and DISCOVERY_MODE have no reference value (the
table says "per agent" and "per test"); NODE, P1 and COMMANDER stand here as notes/assumptions/1.md
says. -/
def Config.reference : Config where
  role := .node
  profile := .p1
  syncP1 := Pattern.reference
  syncP2 := Pattern.reference
  p1Trailer := false
  capMaxP2 := 530
  codes := CmdCodes.reference
  discoveryMode := .commander
  discoveryIntervalMs := 100
  probeTimeoutMult := 3
  ackTimeoutMs := 50
  upstreamGraceMs := 5000
  ackCommandsP2 := [.assignAddress]
  forwardCompletion := true
  touchStateLen := 2
  txFifoDepth := 1024
  rxDuringTx := .drop
  drawSource := 0
  counterPolicy := .absent
  counterReset := 0

end Sys2Proof
end

