-- ==== Sys2Proof/WellFormed.lean ====
section
/-! DEFINITION. Well-formedness: the bounds rule R17 puts on a logical packet, and the constraints
rule R10 puts on the parameters. Both are Bools, so that `decide` runs on them. -/

namespace Sys2Proof

/-- `len(data) <= 255` (R17). -/
def Body.wf (p : Body) : Bool := decide (p.data.length ≤ 255)

/-- A packet that an agent of the profile can carry: rule R17's bound, and `ack` always false under P2
(R17, 90_conflicts.md C5). -/
def Instr.wf (pr : Profile) (i : Instr) : Bool :=
  i.body.wf && (decide (pr = .p1) || !i.body.ack)

/-- The code parameters are pairwise distinct and each lies in 0..33 (R10, R130). -/
def CmdCodes.wf (c : CmdCodes) : Bool :=
  decide (CmdName.all.map c.code).Nodup && CmdName.all.all fun n => decide ((c.code n).toNat ≤ 33)

/-- The constraint column of rule R10, and R324's that ASSIGN_ADDRESS is acknowledged under P2. -/
def Config.wf (c : Config) : Bool :=
  decide (c.syncP2 ≠ c.syncP2.reverse) && decide (20 ≤ c.capMaxP2) && c.codes.wf
    && decide (0 < c.discoveryIntervalMs.toNat) && decide (1 ≤ c.probeTimeoutMult)
    && decide (0 < c.ackTimeoutMs.toNat) && decide (0 < c.upstreamGraceMs.toNat)
    && decide (CmdName.assignAddress ∈ c.ackCommandsP2) && decide c.ackCommandsP2.Nodup
    && decide (c.touchStateLen ≤ 255) && decide (4 + 16 + 510 + 4 ≤ c.txFifoDepth)

end Sys2Proof
end

