-- ==== Sys2Proof/Decode.lean ====
section
/-! DEFINITION. The Packet Codec (41_codec.md) over the wire formats of 30_encoding.md: field assembly,
the two decoders, the command code space, the payload minimum of each command, and after them the two
encoders. Decoding is total: a frame gives an instruction, an unknown code, or a named drop. -/

namespace Sys2Proof

/-! ## Fields (R14, R81, R119) -/

/-- `be16(hi, lo) = hi * 256 + lo` (R14). -/
def be16 (hi lo : Byte) : U16 := hi ++ lo

/-- `hi8(v) = v[15:8]` (R14). -/
def hi8 (v : U16) : Byte := v.extractLsb' 8 8

/-- `lo8(v) = v[7:0]` (R14). -/
def lo8 (v : U16) : Byte := v.extractLsb' 0 8

/-- `zext_8(v[7:4])`, the first wire byte of a logical byte under P2 (R81). -/
def highNibble (v : Byte) : Byte := (v.extractLsb' 4 4).setWidth 8

/-- `zext_8(v[3:0])`, the second wire byte of a logical byte under P2 (R81). -/
def lowNibble (v : Byte) : Byte := (v.extractLsb' 0 4).setWidth 8

/-- `w[2k][3:0] * 16 + w[2k+1][3:0]` (R119). -/
def joinNibbles (hi lo : Byte) : Byte := hi.extractLsb' 0 4 ++ lo.extractLsb' 0 4

/-- `nib(x)`: the nibble doubling of a byte sequence (R115, R196). -/
def nibbles : List Byte → List Byte
  | [] => []
  | v :: rest => highNibble v :: lowNibble v :: nibbles rest

/-- De-nibbling (R119, R186): each pair of wire bytes gives one logical byte. -/
def denibble : List Byte → List Byte
  | hi :: lo :: rest => joinNibbles hi lo :: denibble rest
  | _ => []

/-- Byte `k` of a byte sequence, counting from 0 at the first byte transmitted (R12). Every rule reads it
only where the sequence is long enough; beyond the end it is 0. -/
def byteAt (c : List Byte) (k : Nat) : Byte := c.getD k 0

/-! ## Decoding (R184 to R187) -/

/-- Why a frame is dropped (R185, R186): the codec's error events of rule R360, codes 5 to 9. -/
inductive DropReason where
  /-- SHORT_FRAME: shorter than the profile's header. -/
  | shortFrame
  /-- LENGTH_MISMATCH: a P1 frame whose length is not `9 + data_len`. -/
  | lengthMismatch
  /-- ODD_LENGTH: a P2 frame of odd length. -/
  | oddLength
  /-- BAD_NIBBLE: a P2 byte above 0F. -/
  | badNibble
  /-- OVERSIZED: a P2 payload above 255 logical bytes. -/
  | oversized
deriving DecidableEq, Repr

/-- The result of rule R184's `decode`: a logical packet or `Dropped`. -/
inductive Decoded where
  | packet (p : Packet)
  | dropped (r : DropReason)
deriving DecidableEq, Repr

/-- P1_HEADER_LEN = 9 (R9). -/
def p1HeaderLen : Nat := 9

/-- P2_HEADER_WIRE_LEN = 16 (R9). -/
def p2HeaderWireLen : Nat := 16

/-- P2_HEADER_LOGICAL_LEN = 8 (R9). -/
def p2HeaderLogicalLen : Nat := 8

/-- The P1 header and data fields of a frame long enough to hold them (R112, R118). -/
def fieldsP1 (c : List Byte) : Packet where
  pid := be16 (byteAt c 0) (byteAt c 1)
  origin := byteAt c 2
  dest := byteAt c 3
  firstHop := byteAt c 4
  ack := (byteAt c 5).getLsbD 7
  cmd := be16 (byteAt c 6) (byteAt c 7)
  data := (c.drop p1HeaderLen).take (byteAt c 8).toNat

/-- `decode_P1(c)` (R185). Bits 6..0 of `flags` are ignored (R113). -/
def decodeP1 (c : List Byte) : Decoded :=
  if c.length < p1HeaderLen then .dropped .shortFrame
  else if c.length ≠ p1HeaderLen + (byteAt c 8).toNat then .dropped .lengthMismatch
  else .packet (fieldsP1 c)

/-- The P2 header and data fields of the de-nibbled bytes `L` (R116, R118). `L[7]`, the encoder's
`data_len`, is not read (R186). -/
def fieldsP2 (l : List Byte) : Packet where
  pid := be16 (byteAt l 0) (byteAt l 1)
  origin := byteAt l 2
  dest := byteAt l 3
  firstHop := byteAt l 4
  ack := false
  cmd := be16 (byteAt l 5) (byteAt l 6)
  data := l.drop p2HeaderLogicalLen

/-- `decode_P2(c)` (R186): the checks in the order of the rule, the first that fails naming the event. -/
def decodeP2 (c : List Byte) : Decoded :=
  if c.length < p2HeaderWireLen then .dropped .shortFrame
  else if c.length % 2 = 1 then .dropped .oddLength
  else if c.any (fun b => decide (0x0F < b.toNat)) then .dropped .badNibble
  else if 255 < (denibble c).length - p2HeaderLogicalLen then .dropped .oversized
  else .packet (fieldsP2 (denibble c))

/-- `decode(c)` (R184): by the rules of the configured profile and of no other (R201). -/
def decodeFrame (pr : Profile) (c : List Byte) : Decoded :=
  match pr with
  | .p1 => decodeP1 c
  | .p2 => decodeP2 c

/-- The name N with `CMD_N = cmd`, or none (R130, R133, R260). -/
def CmdCodes.nameOf (codes : CmdCodes) (cmd : U16) : Option CmdName :=
  CmdName.all.find? fun n => codes.code n == cmd

/-- What a frame means to an agent: an instruction, a packet whose code is no CMD_N parameter (R133), or a
dropped frame with its reason. -/
inductive DecodeResult where
  | instr (i : Instr)
  | unknown (p : Packet)
  | dropped (r : DropReason)
deriving DecidableEq, Repr

/-- The frame the framer hands over (the bytes after the start pattern, under P2 without the end pattern)
read as an instruction: rule R184 and then the code lookup of rules R260 and R339. -/
def decode (cfg : Config) (c : List Byte) : DecodeResult :=
  match decodeFrame cfg.profile c with
  | .dropped r => .dropped r
  | .packet p =>
    match cfg.codes.nameOf p.cmd with
    | some n => .instr (n.instr p.toBody)
    | none => .unknown p

/-! ## Payload layout (R132) -/

/-- `need(n)`: the least `len(data)` the dispatcher requires of a command (R132). -/
def need (touchStateLen : Nat) : CmdName → Nat
  | .reset => 0
  | .assignAddress => 1
  | .enablePropagation => 0
  | .setChainLength => 1
  | .startBusMode => 0
  | .endBusMode => 0
  | .announce => 0
  | .probe => 0
  | .probeResponse => 2
  | .terminatorAnnounce => 1
  | .ack => 2
  | .panic => 0
  | .readyStatus => 0
  | .touchState => touchStateLen
  | .setBrightness => 1
  | .setDisplayColors => 6
  | .setBackgroundColors => 6
  | .setBacklight => 4
  | .setGradient => 2
  | .setTransitionType => 1
  | .setTransitionDuration => 2
  | .setTransitionInterpolation => 1
  | .setFrameBlending => 1
  | .setCharacter => 1
  | .showCmd => 0
  | .touchRead => 0
  | .calibrateTouch => 0
  | .saveConfig => 0

/-! ## Encoding (R195, R196) -/

/-- `len(pkt.data)` as the one-byte `data_len` field (R112, R116). -/
def dataLen (p : Packet) : Byte := BitVec.ofNat 8 p.data.length

/-- The P1 bytes after the start pattern and before any trailer (R112, R195): what a P1 framer hands over.
Bits 6..0 of `flags` are written 0 (R113). -/
def bodyP1 (p : Packet) : List Byte :=
  [hi8 p.pid, lo8 p.pid, p.origin, p.dest, p.firstHop, if p.ack then 0x80 else 0x00,
   hi8 p.cmd, lo8 p.cmd, dataLen p] ++ p.data

/-- The P2 logical header `H` of rules R116 and R196. -/
def headerP2 (p : Packet) : List Byte :=
  [hi8 p.pid, lo8 p.pid, p.origin, p.dest, p.firstHop, hi8 p.cmd, lo8 p.cmd, dataLen p]

/-- The P2 wire bytes between the start pattern and the end pattern (R115, R196): what a P2 framer hands
over. `ack` is not carried. -/
def bodyP2 (p : Packet) : List Byte := nibbles (headerP2 p) ++ nibbles p.data

/-- The start pattern of the configured profile (R152). -/
def Config.startPattern (c : Config) : Pattern :=
  match c.profile with
  | .p1 => c.syncP1
  | .p2 => c.syncP2

/-- END_P2 = `reverse(SYNC_P2)` (R10, R115). -/
def Config.endPattern (c : Config) : Pattern := c.syncP2.reverse

/-- The frame bytes of a packet as the framer hands them over, in the configured profile. -/
def frameBody (cfg : Config) (p : Packet) : List Byte :=
  match cfg.profile with
  | .p1 => bodyP1 p
  | .p2 => bodyP2 p

/-- What follows the frame on the wire: the optional P1 trailer (R114) or END_P2 (R115). -/
def frameTail (cfg : Config) : List Byte :=
  match cfg.profile with
  | .p1 => if cfg.p1Trailer then cfg.syncP1.reverse.toList else []
  | .p2 => cfg.endPattern.toList

/-- `encode_P1(pkt)` or `encode_P2(pkt)` (R195, R196): the wire bytes of a packet. -/
def encodePacket (cfg : Config) (p : Packet) : List Byte :=
  cfg.startPattern.toList ++ frameBody cfg p ++ frameTail cfg

/-- The logical packet of an instruction: its operands and its code parameter (R17, R130). -/
def Instr.packet (cfg : Config) (i : Instr) : Packet :=
  { i.body with cmd := cfg.codes.code i.name }

/-- The wire bytes of an instruction. -/
def encode (cfg : Config) (i : Instr) : List Byte := encodePacket cfg (i.packet cfg)

/-! ## The opcode table's numbering -/

/-- The packet that stands for the opcode table's word `w`, which is the 16-bit `cmd` field alone: every
operand byte is zero, the payload has the length its command needs, and the destination is 255, so that
an agent executes it (notes/assumptions/14.md). -/
def tablePacket (cfg : Config) (w : Nat) : Packet where
  pid := 0
  origin := 0
  dest := addrBroadcast
  firstHop := 0
  ack := false
  cmd := BitVec.ofNat 16 w
  data :=
    match cfg.codes.nameOf (BitVec.ofNat 16 w) with
    | some n => List.replicate (need cfg.touchStateLen n) 0
    | none => []

/-- The instruction the decoder reads from the opcode table's word `w` of `nbits` bits, under the reference
parameters: the word's packet is laid out as a frame and given to `decode`. -/
def decodeTableWord (nbits w : Nat) : Option Instr :=
  if nbits = 16 ∧ w < 65536 then
    match decode Config.reference (frameBody Config.reference (tablePacket Config.reference w)) with
    | .instr i => some i
    | _ => none
  else none

end Sys2Proof
end

