-- ==== Sys2Proof/Machine/State.lean ====
section
/-! DEFINITION. The state of one agent (10_state.md): its configuration, framers, transmit FIFOs, node
registers, commander registers, the environment's events that wait to be delivered, and the output and
error events of the latest step. Plain data throughout. -/

namespace Sys2Proof.Machine

open Sys2Proof

/-- A serial port (R30, R55): UP faces the commander, DOWN the rest of the chain. -/
inductive Port where
  | up
  | down
deriving DecidableEq, Repr

/-- `other(UP) = DOWN` and `other(DOWN) = UP` (R89). -/
def Port.other : Port → Port
  | .up => .down
  | .down => .up

/-- `fstate : {HUNT, CAPTURE}` (R40). -/
inductive FState where
  | hunt
  | capture
deriving DecidableEq, Repr

/-- A framer (R40). -/
structure Framer where
  /-- `win`: the last four bytes received. -/
  win : Pattern
  /-- `win_count : 0..4`: how many bytes `win` holds. -/
  winCount : Nat
  /-- `fstate`. -/
  fstate : FState
  /-- `cap`: the bytes captured since the start pattern. -/
  cap : List Byte
deriving DecidableEq, Repr

/-- A framer at reset (R40, R390). `win` is unspecified there: zeros (notes/assumptions/3.md). -/
def Framer.reset : Framer := ⟨⟨0, 0, 0, 0⟩, 0, .hunt, []⟩

/-- `chain_state` (R35). -/
inductive ChainState where
  | unassigned
  | discovering
  | assigned
  | terminating
  | relay
deriving DecidableEq, Repr

/-- `error_status` (R38). -/
inductive ErrorStatus where
  | none
  | neverAssigned
  | assignedSilent
deriving DecidableEq, Repr

/-- The registers of a node (R31 to R38, R62). -/
structure NodeRegs where
  /-- `local_address` (R31). -/
  localAddress : Byte
  /-- `chain_length` (R32). -/
  chainLength : Byte
  /-- `propagation_mode` (R33). -/
  propagationMode : Bool
  /-- `bus_mode` (R34), which is also the output level `pass_through` (R57). -/
  busMode : Bool
  /-- `chain_state` (R35). -/
  chainState : ChainState
  /-- `probe_armed` (R36). -/
  probeArmed : Bool
  /-- `probe_start` (R36). -/
  probeStart : U32
  /-- `last_announce` (R37). -/
  lastAnnounce : U32
  /-- `last_up_rx` (R38). -/
  lastUpRx : U32
  /-- `error_status` (R38), an output level (R58). -/
  errorStatus : ErrorStatus
  /-- `freeze`, an output level (R62). -/
  freeze : Bool
deriving DecidableEq, Repr

/-- The reset values of the node registers, at time `now` (R390). -/
def NodeRegs.reset (now : U32) : NodeRegs where
  localAddress := addrNull
  chainLength := 0
  propagationMode := false
  busMode := false
  chainState := .unassigned
  probeArmed := false
  probeStart := 0
  lastAnnounce := now
  lastUpRx := now
  errorStatus := .none
  freeze := false

/-- One entry of the PendingAck ring (R47). -/
structure RingEntry where
  valid : Bool
  pid : U16
  acked : Bool
deriving DecidableEq, Repr

/-- `proc` (R48). -/
inductive Proc where
  | idle
  | discover
  | recover
  | sendWait
deriving DecidableEq, Repr

/-- `phase` (R48): the phases named by rules R330 to R338. -/
inductive Phase where
  | aWait
  | eWait
  | raWait
  | reWait
  | mWait
  | sWait
deriving DecidableEq, Repr

/-- The registers of the commander (R46 to R49). -/
structure CommanderRegs where
  /-- `chain_length_c` (R46). -/
  chainLength : Byte
  /-- `ring` (R47): PENDING_ACK_CAPACITY = 8 entries. -/
  ring : List RingEntry
  /-- `ring_w : 0..7` (R47). -/
  ringW : Fin 8
  /-- `proc` (R48). -/
  proc : Proc
  /-- `phase` (R48). -/
  phase : Phase
  /-- `i : 0..253` (R48). -/
  i : Nat
  /-- `wait_pid` (R48). -/
  waitPid : U16
  /-- `wait_start` (R48). -/
  waitStart : U32
  /-- `wait_dest` (R48). -/
  waitDest : Byte
  /-- `rec_a : 0..253` (R48). -/
  recA : Nat
  /-- `panic_latch.valid` (R49). -/
  panicValid : Bool
  /-- `panic_latch.hop` (R49). -/
  panicHop : Byte
deriving DecidableEq, Repr

/-- The reset values of the commander registers (R390). The ring's `pid` and `acked`, the procedure
variables and the latch's `hop` are unspecified there: zero, false and the first phase
(notes/assumptions/3.md). -/
def CommanderRegs.reset : CommanderRegs where
  chainLength := 0
  ring := List.replicate 8 ⟨false, 0, false⟩
  ringW := 0
  proc := .idle
  phase := .aWait
  i := 0
  waitPid := 0
  waitStart := 0
  waitDest := 0
  recA := 0
  panicValid := false
  panicHop := 0

/-- The host operations of rule R352, with their arguments; a destination left out is 255. -/
inductive HostOp where
  | begin
  | setBrightness (d : Option Byte) (v : Byte)
  | setColor (d : Option Byte) (rA gA bA rB gB bB : Byte)
  | setBackgroundColor (d : Option Byte) (rA gA bA rB gB bB : Byte)
  | setBacklight (d : Option Byte) (r g b v : Byte)
  | setGradient (d : Option Byte) (gd gb : Byte)
  | setTransitionType (d : Option Byte) (t : Byte)
  | setTransitionDuration (d : Option Byte) (ms : U16)
  | setTransitionInterpolation (d : Option Byte) (c : Byte)
  | setFrameBlending (d : Option Byte) (v : Byte)
  | setCharacter (d : Option Byte) (g : Byte)
  | setString (s : List Byte)
  | showOp
  | startBusMode
  | endBusMode
  | touchRead (d : Option Byte)
  | calibrateTouch (d : Option Byte) (bytes : List Byte)
  | saveConfig (d : Option Byte)
  | command (d : Option Byte) (n : CmdName) (data : List Byte) (wantAck : Bool)
deriving DecidableEq, Repr

/-- The names under which `host_result` reports (R333, R338, R350, R352). -/
inductive HostOpName where
  | begin
  | setBrightness
  | setColor
  | setBackgroundColor
  | setBacklight
  | setGradient
  | setTransitionType
  | setTransitionDuration
  | setTransitionInterpolation
  | setFrameBlending
  | setCharacter
  | setString
  | showOp
  | startBusMode
  | endBusMode
  | touchRead
  | calibrateTouch
  | saveConfig
  | command
deriving DecidableEq, Repr

/-- An input event (R364), and the two ways the environment acts that are no event of that table: an
external reset (R390) and a change of the input level `touch_state` (R63). -/
inductive Event where
  /-- `rx_byte(port, b)` (R55). -/
  | rxByte (p : Port) (b : Byte)
  /-- `tx_done(port)` (R55). -/
  | txDone (p : Port)
  /-- `tick(now)` (R56). -/
  | tick (now : U32)
  /-- `transition_complete()` (R61). -/
  | transitionComplete
  /-- `panic_request(h)` (R65). -/
  | panicRequest (h : Byte)
  /-- `host_call(op, args)` (R66). -/
  | hostCall (op : HostOp)
  /-- Power-on or an equivalent external reset, at time `now` (R390). -/
  | externalReset (now : U32)
  /-- The touch collaborator drives the level `touch_state` (R63). -/
  | touchLevel (reading : List Byte)
deriving DecidableEq, Repr

/-- A colour value, red, green, blue (R265, D50). -/
structure Rgb where
  r : Byte
  g : Byte
  b : Byte
deriving DecidableEq, Repr

/-- A RenderSet request (R60): the field of rule R265's table and the integer the block emits. -/
inductive RenderSet where
  | brightness (v : Byte)
  | displayColorA (c : Rgb)
  | displayColorB (c : Rgb)
  | backgroundColorA (c : Rgb)
  | backgroundColorB (c : Rgb)
  | backlightColor (c : Rgb)
  | backlightBrightness (v : Byte)
  | displayGradient (v : Byte)
  | backgroundGradient (v : Byte)
  | transitionType (v : Byte)
  | transitionDuration (ms : U16)
  | transitionInterpolation (v : Byte)
  | frameBlending (v : Byte)
  | glyph (v : Byte)
deriving DecidableEq, Repr

/-- An output event of 10_state.md section 6. -/
inductive Output where
  /-- The head byte of a TX FIFO has been transmitted (R55). -/
  | transmitted (p : Port) (b : Byte)
  /-- The level `freeze` is driven to a value (R62, R263). -/
  | freeze (level : Bool)
  /-- `emit RenderSet(field, value)` (R60). -/
  | renderSet (r : RenderSet)
  /-- `emit Trigger()` (R60, R280). -/
  | trigger
  /-- `emit TouchCalibrate(payload)` (R63, R282). -/
  | touchCalibrate (data : List Byte)
  /-- `emit StorageSave()` (R64, R283). -/
  | storageSave
  /-- `host_result(op, bool)` (R66). -/
  | hostResult (op : HostOpName) (ok : Bool)
  /-- `host_touch(origin, data)` (R66, R342). -/
  | hostTouch (origin : Byte) (data : List Byte)
  /-- `host_ready(origin)` (R66, R342). -/
  | hostReady (origin : Byte)
deriving DecidableEq, Repr

/-- The error events of rule R360, in the order of their codes 1 to 12. -/
inductive ErrorEvent where
  | rxDropped (p : Port)
  | txOverflow (p : Port)
  | frameRestarted (p : Port)
  | captureOverflow (p : Port)
  | shortFrame (p : Port)
  | lengthMismatch (p : Port)
  | oddLength (p : Port)
  | badNibble (p : Port)
  | oversized (p : Port)
  | shortPayload (n : CmdName)
  | badOperand (n : CmdName)
  | ackTimeout (pid : U16)
deriving DecidableEq, Repr

/-- The state of one agent. A node uses every part but `cmdr`; a commander uses the DOWN port's framer and
FIFO, `cmdr` and the shared parts (R30, R40, R41). -/
structure State where
  /-- The configuration, constant for the agent's lifetime (R45). -/
  cfg : Config
  /-- `now`: the time the agent knows (R56, R151). -/
  now : U32
  /-- Whether the environment has delivered a time value yet (R390). The model's own. -/
  timeKnown : Bool
  /-- `pid_counter` (R39). -/
  pidCounter : U16
  /-- How many packet ids have been drawn under P2 (R197). The model's own. -/
  drawCount : Nat
  /-- FR_UP (R40). -/
  frUp : Framer
  /-- FR_DOWN (R40). -/
  frDown : Framer
  /-- TXQ_UP, head first (R41). -/
  txUp : List Byte
  /-- TXQ_DOWN, head first (R41). -/
  txDown : List Byte
  /-- The port the packet being handled arrived on, the source's "sender_context" (R260). The model's
  own: it carries the parameter `p` of `handle_node_packet`. -/
  senderPort : Port
  /-- The node registers. -/
  node : NodeRegs
  /-- The commander registers. -/
  cmdr : CommanderRegs
  /-- The input level `touch_state` (R63). -/
  touchLevel : List Byte
  /-- The optional event counters (R361), one per event code and port: see `counterIndex`. -/
  counters : List Nat
  /-- The events that wait in the environment, in the order it delivers them (R364, R365). The model's
  own: the environment's choice as data. -/
  inputs : List Event
  /-- The output events of the latest step, in order (R16 `emit`). -/
  out : List Output
  /-- The error events of the latest step, in order (R16 `raise`, R363). -/
  raised : List ErrorEvent
deriving DecidableEq, Repr

/-- Why a step stops. Each is an environment duty that 70_reset_and_hazards.md R397 states and
93_implementation_defined.md I12 lets a model treat as a fault, or an input the agent has no port or rule
for. No instruction of the opcode table raises one. -/
inductive Fault where
  /-- `tx_done(port)` on an empty TX FIFO (R397 (c)). Raised by `handleEvent`. Safe: the rules define
  nothing there. -/
  | txDoneOnEmpty (p : Port)
  /-- A tick whose time is before the last time value, or 2^31 ms or more after it (R397 (a)). Raised by
  `handleEvent`. Safe: the rules hold only under that duty. -/
  | timeDuty
  /-- `panic_request` delivered to a commander (R397 (f)). Raised by `handleEvent`. Safe. -/
  | panicRequestAtCommander
  /-- A byte or a `tx_done` on the UP port of a commander, which has only a DOWN port (R30, R40, R41).
  Raised by `handleEvent`. Safe: there is no such port. -/
  | noSuchPort (p : Port)
  /-- `transition_complete` at a commander or a host call at a node: R364's table gives the event to the
  other role. Raised by `handleEvent`. Safe: no rule handles it. -/
  | eventOfOtherRole
  /-- A touch reading that is not TOUCH_STATE_LEN bytes (R63). Raised by `handleEvent`. Safe: the level
  has that width. -/
  | touchWidth
  /-- A host call whose payload is above 255 bytes, outside R338's precondition. Raised by `hostCall`.
  Safe: no packet can carry it (R17). -/
  | hostPayloadTooLong
  /-- An agent or a link that the chain does not have. Raised by the chain's own operations
  (Machine/Chain.lean), never by `step`. Safe. -/
  | noSuchAgent
deriving DecidableEq, Repr

/-- Why an instruction has no meaning. Nothing is refused in this model. -/
inductive Refusal where
  /-- An instruction of the opcode table without a meaning. Raised by no arm of `exec`. Safe. -/
  | notModelled (mnemonic : String)
deriving DecidableEq, Repr

/-- The state of an agent of a configuration right after power-on or an external reset at time `now`
(R390). The levels and lists that are no register of R390's table stand as notes/assumptions/3.md and
notes/assumptions/4.md say. -/
def State.resetWith (cfg : Config) (now : U32) (timeKnown : Bool) : State where
  cfg := cfg
  now := now
  timeKnown := timeKnown
  pidCounter := 0
  drawCount := 0
  frUp := Framer.reset
  frDown := Framer.reset
  txUp := []
  txDown := []
  senderPort := .up
  node := NodeRegs.reset now
  cmdr := CommanderRegs.reset
  touchLevel := List.replicate cfg.touchStateLen 0
  counters := List.replicate 36 cfg.counterReset
  inputs := []
  out := []
  raised := []

/-- The machine right after reset (R390): the reference configuration, no time value delivered yet. -/
def State.reset : State := State.resetWith Config.reference 0 false

end Sys2Proof.Machine
end

