-- ==== Sys2Proof/Machine/Operands.lean ====
section
/-! DEFINITION. The operand forms: how a payload's bytes are assembled into the fields of rule R132's
layouts, the units of rule R120, and the class of every command (R261). -/

namespace Sys2Proof.Machine

open Sys2Proof

/-- `data[k]`, the u8 field at payload byte `k` (R132). -/
def payloadByte (p : Body) (k : Nat) : Byte := byteAt p.data k

/-- `be16(data[k], data[k+1])`, a big-endian 16-bit payload field (R82). -/
def payloadWord (p : Body) (k : Nat) : U16 := be16 (byteAt p.data k) (byteAt p.data (k + 1))

/-- The colour at payload bytes `k`, `k+1`, `k+2`: red, green, blue (R271, D50). -/
def payloadRgb (p : Body) (k : Nat) : Rgb := ⟨byteAt p.data k, byteAt p.data (k + 1), byteAt p.data (k + 2)⟩

/-- The two-byte payload that echoes a packet id, high byte first (R82, D17). -/
def pidPayload (pid : U16) : List Byte := [hi8 pid, lo8 pid]

/-- `v / 255`, what a channel, brightness, opacity or blend byte means to the render side (R120). The
block emits the integer and never computes this. -/
def unitValue (v : Byte) : ℚ := v.toNat / 255

/-- The classes of rule R261. -/
inductive CmdClass where
  /-- CLASS_CMD: commands, accepted from UP, ACK-eligible. -/
  | cmd
  /-- CLASS_UP_MSG: chain messages travelling upstream, accepted from DOWN. -/
  | upMsg
  /-- CLASS_RESP: responses for the commander, ignored by nodes. -/
  | resp
deriving DecidableEq, Repr

/-- The class of a command name (R261). -/
def cmdClass : CmdName → CmdClass
  | .announce => .upMsg
  | .probeResponse => .upMsg
  | .terminatorAnnounce => .upMsg
  | .ack => .resp
  | .panic => .resp
  | .readyStatus => .resp
  | .touchState => .resp
  | .reset => .cmd
  | .assignAddress => .cmd
  | .enablePropagation => .cmd
  | .setChainLength => .cmd
  | .startBusMode => .cmd
  | .endBusMode => .cmd
  | .probe => .cmd
  | .setBrightness => .cmd
  | .setDisplayColors => .cmd
  | .setBackgroundColors => .cmd
  | .setBacklight => .cmd
  | .setGradient => .cmd
  | .setTransitionType => .cmd
  | .setTransitionDuration => .cmd
  | .setTransitionInterpolation => .cmd
  | .setFrameBlending => .cmd
  | .setCharacter => .cmd
  | .showCmd => .cmd
  | .touchRead => .cmd
  | .calibrateTouch => .cmd
  | .saveConfig => .cmd

/-- The port a node accepts a class from (R261). -/
def CmdClass.port : CmdClass → Option Port
  | .cmd => some .up
  | .upMsg => some .down
  | .resp => none

end Sys2Proof.Machine
end

