-- ==== Sys2Proof/Machine/Flags.lean ====
section
/-! DEFINITION. The block has no arithmetic condition codes (10_state.md R43). The one flag a rule computes
with is a packet's `ack` bit, P1 `flags` bit 7: whether a command asks for an ACK, and whether the
commander's own packets do. -/

namespace Sys2Proof.Machine

open Sys2Proof

/-- The condition of rule R236: whether a node acknowledges command `n` carried by packet `p`. -/
def ackWanted (cfg : Config) (n : CmdName) (p : Body) : Bool :=
  decide (p.dest ≠ addrBroadcast) &&
    match cfg.profile with
    | .p1 => p.ack
    | .p2 => decide (n ∈ cfg.ackCommandsP2)

/-- `ack1 = (PROFILE = P1)` (R320): the `ack` bit of a packet whose answer the commander awaits. -/
def ack1 (cfg : Config) : Bool := decide (cfg.profile = .p1)

/-- `waits_for(N)` (R320): whether a node will ACK command N when asked. -/
def waitsFor (cfg : Config) (n : CmdName) : Bool :=
  decide (cfg.profile = .p1) || decide (n ∈ cfg.ackCommandsP2)

end Sys2Proof.Machine
end

