-- ==== Sys2Proof/Machine/Ops.lean ====
section
/-! DEFINITION. The primitives of 00_scope.md R16 over the state: `raise`, `emit`, `fresh_pid`, `send`,
`forward`, elapsed time, and access to a port's framer and FIFO. The block has no traps (R366): `raise`
is the one shared operation by which a rule reports an error, and nothing returns from it (R367). -/

namespace Sys2Proof.Machine

open Sys2Proof

/-! ## Ports -/

/-- The framer of a port (R40). -/
def State.framer (s : State) : Port → Framer
  | .up => s.frUp
  | .down => s.frDown

/-- Write the framer of a port. -/
def State.setFramer (s : State) (p : Port) (f : Framer) : State :=
  match p with
  | .up => { s with frUp := f }
  | .down => { s with frDown := f }

/-- The TX FIFO of a port (R41). -/
def State.txq (s : State) : Port → List Byte
  | .up => s.txUp
  | .down => s.txDown

/-- Write the TX FIFO of a port. -/
def State.setTxq (s : State) (p : Port) (q : List Byte) : State :=
  match p with
  | .up => { s with txUp := q }
  | .down => { s with txDown := q }

/-! ## Status view and output levels -/

/-- The output level `pass_through = bus_mode` (R57). -/
def State.passThrough (s : State) : Bool := s.node.busMode

/-- The status tuple of rule R44, read-only from outside. -/
structure Status where
  localAddress : Byte
  chainLength : Byte
  propagationMode : Bool
  busMode : Bool
  chainState : ChainState
  errorStatus : ErrorStatus
deriving DecidableEq, Repr

/-- The node's status as seen from outside (R44, R58). -/
def State.status (s : State) : Status where
  localAddress := s.node.localAddress
  chainLength := s.node.chainLength
  propagationMode := s.node.propagationMode
  busMode := s.node.busMode
  chainState := s.node.chainState
  errorStatus := s.node.errorStatus

/-! ## Error events (R360, R361) -/

/-- The code of an error event (R360). -/
def ErrorEvent.code : ErrorEvent → Nat
  | .rxDropped _ => 1
  | .txOverflow _ => 2
  | .frameRestarted _ => 3
  | .captureOverflow _ => 4
  | .shortFrame _ => 5
  | .lengthMismatch _ => 6
  | .oddLength _ => 7
  | .badNibble _ => 8
  | .oversized _ => 9
  | .shortPayload _ => 10
  | .badOperand _ => 11
  | .ackTimeout _ => 12

/-- The port of an error event, for those whose info is a port (R360). -/
def ErrorEvent.port : ErrorEvent → Option Port
  | .rxDropped p => some p
  | .txOverflow p => some p
  | .frameRestarted p => some p
  | .captureOverflow p => some p
  | .shortFrame p => some p
  | .lengthMismatch p => some p
  | .oddLength p => some p
  | .badNibble p => some p
  | .oversized p => some p
  | .shortPayload _ => none
  | .badOperand _ => none
  | .ackTimeout _ => none

/-- Where the counter of an event stands (R361, "one ... counter per event code and port"): three places a
code, for UP, DOWN and events that carry no port. -/
def ErrorEvent.counterIndex (e : ErrorEvent) : Nat :=
  3 * (e.code - 1) +
    match e.port with
    | some .up => 0
    | some .down => 1
    | none => 2

/-- One count under the implementation's policy (R361). -/
def bumpCount (p : CounterPolicy) (v : Nat) : Nat :=
  match p with
  | .absent => v
  | .wrapping w => (v + 1) % 2 ^ w
  | .saturating w => min (v + 1) (2 ^ w - 1)

/-- `raise E(info)` (R16, R360): the event is recorded and counted, and control stays in the raising
rule. It changes no architectural state. -/
def raise (e : ErrorEvent) (s : State) : State :=
  { s with
    raised := s.raised ++ [e]
    counters := s.counters.modify e.counterIndex (bumpCount s.cfg.counterPolicy) }

/-- `raise` of an event that may be absent. -/
def raiseOption (e : Option ErrorEvent) (s : State) : State :=
  match e with
  | some e => raise e s
  | none => s

/-- `emit Name(args)` (R16): one output event of this step. -/
def emit (o : Output) (s : State) : State := { s with out := s.out ++ [o] }

/-- The level `freeze` is driven to a value, which the render side sees in order with the RenderSet events
(R62, R263). -/
def setFreeze (level : Bool) (s : State) : State :=
  emit (.freeze level) { s with node := { s.node with freeze := level } }

/-! ## Time (R15) -/

/-- `elapsed(t) = (now - t) mod 2^32` (R15). -/
def elapsed (s : State) (t : U32) : Nat := (s.now - t).toNat

/-! ## Transmitting (R88, R89, R197) -/

/-- `fresh_pid()` (R197): under P1 the counter, which then advances modulo 65536; under P2 the next answer
of the oracle. -/
def freshPid (s : State) : U16 × State :=
  match s.cfg.profile with
  | .p1 => (s.pidCounter, { s with pidCounter := s.pidCounter + 1 })
  | .p2 => (Config.packetIdDraw s.cfg.drawSource s.drawCount, { s with drawCount := s.drawCount + 1 })

/-- `send(port, pkt)` (R88): the whole wire frame is appended to the port's FIFO if it has room, and
otherwise nothing is and TX_OVERFLOW is raised. -/
def send (p : Port) (pkt : Packet) (s : State) : State :=
  if (s.txq p).length + (encodePacket s.cfg pkt).length ≤ s.cfg.txFifoDepth then
    s.setTxq p (s.txq p ++ encodePacket s.cfg pkt)
  else raise (.txOverflow p) s

/-- `forward(port, b)` (R89): one byte, dropped with TX_OVERFLOW when the FIFO is full. -/
def forward (p : Port) (b : Byte) (s : State) : State :=
  if (s.txq p).length < s.cfg.txFifoDepth then s.setTxq p (s.txq p ++ [b])
  else raise (.txOverflow p) s

/-- The packet `{pid, origin, dest, hop, ack, CMD_N, data}` in the configuration's codes. -/
def buildPacket (cfg : Config) (pid : U16) (origin dest hop : Byte) (ack : Bool) (n : CmdName)
    (data : List Byte) : Packet where
  pid := pid
  origin := origin
  dest := dest
  firstHop := hop
  ack := ack
  cmd := cfg.codes.code n
  data := data

/-- `send(port, {fresh_pid(), origin, dest, hop, ack, CMD_N, data})`: a packet an agent originates takes a
fresh id at the moment it is built (R197). -/
def originate (p : Port) (origin dest hop : Byte) (ack : Bool) (n : CmdName) (data : List Byte)
    (s : State) : State :=
  send p (buildPacket s.cfg (freshPid s).1 origin dest hop ack n data) (freshPid s).2

/-- A node's own packet, whose origin and first hop are its address at that moment (R199, R200). -/
def nodeSend (p : Port) (dest : Byte) (n : CmdName) (data : List Byte) (s : State) : State :=
  originate p s.node.localAddress dest s.node.localAddress false n data s

end Sys2Proof.Machine
end

