-- ==== Sys2Proof/Machine/Commander.lean ====
section
/-! DEFINITION. The commander's half of the Chain Protocol Engine (44_commander.md): the PendingAck ring, the
bounded wait, discovery, panic recovery, re-measurement, the acknowledged send and the host calls. -/

namespace Sys2Proof.Machine

open Sys2Proof Host

/-! ## PendingAck ring (R321, R322) -/

/-- The loop of rule R321: an older entry with the same pid stops being valid. -/
def clearPid (pid : U16) (e : RingEntry) : RingEntry :=
  if e.valid ∧ e.pid = pid then { e with valid := false } else e

/-- `ring_register(pid)` (R321). -/
def ringRegister (pid : U16) (s : State) : State :=
  { s with cmdr := { s.cmdr with
    ring := (s.cmdr.ring.map (clearPid pid)).set s.cmdr.ringW.val ⟨true, pid, false⟩
    ringW := s.cmdr.ringW + 1 } }

/-- The loop of rule R322: a valid entry with the pid is acknowledged. -/
def ackPid (pid : U16) (e : RingEntry) : RingEntry :=
  if e.valid ∧ e.pid = pid then { e with acked := true } else e

/-- `ring_ack(pid)` (R322). -/
def ringAck (pid : U16) (s : State) : State :=
  { s with cmdr := { s.cmdr with ring := s.cmdr.ring.map (ackPid pid) } }

/-! ## Sending and waiting (R320, R323) -/

/-- `send(DOWN, CPKT(d, N, data, ack))` (R320): origin and first hop are the commander. -/
def commanderSend (d : Byte) (n : CmdName) (data : List Byte) (ack : Bool) (s : State) : State :=
  originate .down addrCommander d addrCommander ack n data s

/-- `request(CPKT(d, N, data, ack))` (R323): the frame is sent, its pid registered, and the wait for its
answer begins. -/
def request (d : Byte) (n : CmdName) (data : List Byte) (ack : Bool) (s : State) : State :=
  let sent := ringRegister (freshPid s).1 (commanderSend d n data ack s)
  { sent with cmdr := { sent.cmdr with waitPid := (freshPid s).1, waitStart := s.now } }

/-- The result of a bounded wait (R323). -/
inductive WaitResult where
  | success
  | failure
  | pending
deriving DecidableEq, Repr

/-- Whether an entry answers the awaited pid (R323). -/
def answers (pid : U16) (e : RingEntry) : Bool := e.valid && decide (e.pid = pid) && e.acked

/-- `wait_result()` (R323). -/
def waitResult (s : State) : WaitResult :=
  if s.cmdr.ring.any (answers s.cmdr.waitPid) then .success
  else if s.cfg.ackTimeoutMs.toNat ≤ elapsed s s.cmdr.waitStart then .failure
  else .pending

/-- `proc <- p; phase <- ph`. -/
def enter (p : Proc) (ph : Phase) (s : State) : State :=
  { s with cmdr := { s.cmdr with proc := p, phase := ph } }

/-- `proc <- IDLE`. -/
def goIdle (s : State) : State := { s with cmdr := { s.cmdr with proc := .idle } }

/-- A small number as the u8 the packets carry. -/
def u8 (n : Nat) : Byte := BitVec.ofNat 8 n

/-! ## Discovery (R330 to R333, R344) -/

/-- `chain_length_c <- n` and the SET_CHAIN_LENGTH broadcast (R333, R335). -/
def announceLength (n : Nat) (s : State) : State :=
  commanderSend addrBroadcast .setChainLength [u8 n] false
    { s with cmdr := { s.cmdr with chainLength := u8 n } }

/-- `finish_discovery(n, ok)` (R333). -/
def finishDiscovery (n : Nat) (ok : Bool) (s : State) : State :=
  emit (.hostResult .begin ok) (goIdle (announceLength n s))

/-- `i <- n`. -/
def setI (n : Nat) (s : State) : State := { s with cmdr := { s.cmdr with i := n } }

/-- `assign_next()` (R330). -/
def assignNext (s : State) : State :=
  if s.cmdr.i = 253 then finishDiscovery 253 true s
  else enter .discover .aWait (request addrNull .assignAddress [u8 s.cmdr.i] (ack1 s.cfg) s)

/-- The RESET broadcast with which `begin()` starts (R330, R344). -/
def beginReset (s : State) : State :=
  commanderSend addrBroadcast .reset [] false { s with cmdr := { s.cmdr with chainLength := 0 } }

/-- Host call `begin()` (R330 under COMMANDER, R344 under NODE_TO_NODE). -/
def beginDiscovery (s : State) : State :=
  match s.cfg.discoveryMode with
  | .commander => assignNext (setI 0 (beginReset s))
  | .nodeToNode => emit (.hostResult .begin true) (beginReset s)

/-- Phase A_WAIT (R331). -/
def assignAnswered (r : WaitResult) (s : State) : State :=
  match r with
  | .pending => s
  | .failure => finishDiscovery s.cmdr.i true s
  | .success =>
    if waitsFor s.cfg .enablePropagation then
      enter .discover .eWait (request (u8 s.cmdr.i) .enablePropagation [] (ack1 s.cfg) s)
    else
      assignNext (setI (s.cmdr.i + 1)
        (commanderSend (u8 s.cmdr.i) .enablePropagation [] (ack1 s.cfg) s))

/-- Phase E_WAIT (R332). -/
def enableAnswered (r : WaitResult) (s : State) : State :=
  match r with
  | .pending => s
  | .success => assignNext (setI (s.cmdr.i + 1) s)
  | .failure => finishDiscovery (s.cmdr.i + 1) false s

/-! ## Re-measurement (R335) -/

/-- `measure_finish()`. -/
def measureFinish (s : State) : State := goIdle (announceLength s.cmdr.i s)

/-- `measure_next()`. -/
def measureNext (s : State) : State :=
  if s.cmdr.i = 253 then measureFinish s
  else enter .recover .mWait (request (u8 s.cmdr.i) .probe [] false s)

/-- `measure_start()`: always from address 0 (93_implementation_defined.md I2). -/
def measureStart (s : State) : State := measureNext (setI 0 s)

/-- Phase M_WAIT. -/
def measureAnswered (r : WaitResult) (s : State) : State :=
  match r with
  | .pending => s
  | .success => measureNext (setI (s.cmdr.i + 1) s)
  | .failure => measureFinish s

/-! ## Panic recovery (R334, R336, R337, R341) -/

/-- `panic_latch <- {valid = true, hop = h}` (R341, R338). -/
def latchPanic (h : Byte) (s : State) : State :=
  { s with cmdr := { s.cmdr with panicValid := true, panicHop := h } }

/-- The address rule R334 derives from a hop: the next one, 253 where none is assignable, 0 from a
sentinel. -/
def recoveryAddress (hop : Byte) : Nat :=
  if hop.toNat ≤ 251 then hop.toNat + 1
  else if hop.toNat = 252 then 253
  else 0

/-- `start_recovery()` (R334), which consumes the latch first (R336). -/
def startRecovery (s : State) : State :=
  let s1 := { s with cmdr := { s.cmdr with
    panicValid := false
    recA := recoveryAddress s.cmdr.panicHop } }
  if s1.cmdr.recA = 253 then measureStart s1
  else enter .recover .raWait (request addrNull .assignAddress [u8 s1.cmdr.recA] (ack1 s1.cfg) s1)

/-- Phase RA_WAIT (R337). -/
def recoveryAssignAnswered (r : WaitResult) (s : State) : State :=
  match r with
  | .pending => s
  | .failure => measureStart s
  | .success =>
    if waitsFor s.cfg .enablePropagation then
      enter .recover .reWait (request (u8 s.cmdr.recA) .enablePropagation [] (ack1 s.cfg) s)
    else measureStart (commanderSend (u8 s.cmdr.recA) .enablePropagation [] (ack1 s.cfg) s)

/-- Phase RE_WAIT (R337): the re-measurement runs whatever the answer. -/
def recoveryEnableAnswered (r : WaitResult) (s : State) : State :=
  match r with
  | .pending => s
  | .success => measureStart s
  | .failure => measureStart s

/-! ## Acknowledged send (R338) -/

/-- The hop that a failed send to `d` latches (R338): the node before `d`, or 254 for node 0. -/
def hopBefore (d : Byte) : Byte := if d = 0 then addrNull else d - 1

/-- Host call `command(d, N, data, want_ack)` (R338). -/
def commandCall (d : Byte) (n : CmdName) (data : List Byte) (wantAck : Bool) (s : State) : State :=
  let ack := ack1 s.cfg && wantAck
  if wantAck = true ∧ d ≤ maxNodeAddress ∧ waitsFor s.cfg n = true then
    let s1 := request d n data ack s
    enter .sendWait .sWait { s1 with cmdr := { s1.cmdr with waitDest := d } }
  else emit (.hostResult .command true) (commanderSend d n data ack s)

/-- Phase S_WAIT (R338). -/
def sendAnswered (r : WaitResult) (s : State) : State :=
  match r with
  | .pending => s
  | .success => emit (.hostResult .command true) (goIdle s)
  | .failure => latchPanic (hopBefore s.cmdr.waitDest) (emit (.hostResult .command false) (goIdle s))

/-! ## Tick (R325) -/

/-- The procedure continues at its phase with a result (R325). -/
def continueProc (r : WaitResult) (s : State) : State :=
  match s.cmdr.phase with
  | .aWait => assignAnswered r s
  | .eWait => enableAnswered r s
  | .raWait => recoveryAssignAnswered r s
  | .reWait => recoveryEnableAnswered r s
  | .mWait => measureAnswered r s
  | .sWait => sendAnswered r s

/-- The first step of rule R325: a wait whose result is known lets its procedure go on. A failed one raises
ACK_TIMEOUT first (R360). -/
def resolveWait (s : State) : State :=
  if s.cmdr.proc = .idle then s
  else
    match waitResult s with
    | .pending => s
    | .success => continueProc .success s
    | .failure => continueProc .failure (raise (.ackTimeout s.cmdr.waitPid) s)

/-- The second step of rule R325: with no procedure running, a latched panic starts its recovery. -/
def recoverIfLatched (s : State) : State :=
  if s.cmdr.proc = .idle ∧ s.cmdr.panicValid = true then startRecovery s else s

/-- The commander's tick (R325), the time being already taken. -/
def commanderTick (s : State) : State := recoverIfLatched (resolveWait s)

/-! ## Host calls (R350 to R352) -/

/-- The name a host operation reports under. -/
def hostOpName : HostOp → HostOpName
  | .begin => .begin
  | .setBrightness _ _ => .setBrightness
  | .setColor _ _ _ _ _ _ _ => .setColor
  | .setBackgroundColor _ _ _ _ _ _ _ => .setBackgroundColor
  | .setBacklight _ _ _ _ _ => .setBacklight
  | .setGradient _ _ _ => .setGradient
  | .setTransitionType _ _ => .setTransitionType
  | .setTransitionDuration _ _ => .setTransitionDuration
  | .setTransitionInterpolation _ _ => .setTransitionInterpolation
  | .setFrameBlending _ _ => .setFrameBlending
  | .setCharacter _ _ => .setCharacter
  | .setString _ => .setString
  | .showOp => .showOp
  | .startBusMode => .startBusMode
  | .endBusMode => .endBusMode
  | .touchRead _ => .touchRead
  | .calibrateTouch _ _ => .calibrateTouch
  | .saveConfig _ => .saveConfig
  | .command _ _ _ _ => .command

/-- The destination of a host call: 255 where it is left out (R352). -/
def hostDest (d : Option Byte) : Byte := d.getD addrBroadcast

/-- The one packet of a host call that is `command(d, N, data, want_ack)` (R352): destination, command,
payload and whether an ACK is asked for. `begin` and `set_string` are not of that shape. -/
def hostCommand : HostOp → Option (Byte × CmdName × List Byte × Bool)
  | .begin => none
  | .setBrightness d v => some (hostDest d, .setBrightness, [v], false)
  | .setColor d rA gA bA rB gB bB => some (hostDest d, .setDisplayColors, [rA, gA, bA, rB, gB, bB], false)
  | .setBackgroundColor d rA gA bA rB gB bB =>
    some (hostDest d, .setBackgroundColors, [rA, gA, bA, rB, gB, bB], false)
  | .setBacklight d r g b v => some (hostDest d, .setBacklight, [r, g, b, v], false)
  | .setGradient d gd gb => some (hostDest d, .setGradient, [gd, gb], false)
  | .setTransitionType d t => some (hostDest d, .setTransitionType, [t], false)
  | .setTransitionDuration d ms => some (hostDest d, .setTransitionDuration, [hi8 ms, lo8 ms], false)
  | .setTransitionInterpolation d c => some (hostDest d, .setTransitionInterpolation, [c], false)
  | .setFrameBlending d v => some (hostDest d, .setFrameBlending, [v], false)
  | .setCharacter d g => some (hostDest d, .setCharacter, [g], false)
  | .setString _ => none
  | .showOp => some (addrBroadcast, .showCmd, [], false)
  | .startBusMode => some (addrBroadcast, .startBusMode, [], false)
  | .endBusMode => some (addrBroadcast, .endBusMode, [], false)
  | .touchRead d => some (hostDest d, .touchRead, [], false)
  | .calibrateTouch d bytes => some (hostDest d, .calibrateTouch, bytes, false)
  | .saveConfig d => some (hostDest d, .saveConfig, [], false)
  | .command d n data wantAck => some (hostDest d, n, data, wantAck)

/-- The packets of `set_string` (R352): one SET_CHARACTER to each destination from `k` on, in order. -/
def sendCharacters (k : Nat) (glyphs : List Byte) (s : State) : State :=
  match glyphs with
  | [] => s
  | g :: rest => sendCharacters (k + 1) rest (commanderSend (u8 k) .setCharacter [g] false s)

/-- An accepted host call (R352). A payload above 255 bytes is outside R338's precondition. -/
def acceptedHostCall (op : HostOp) (s : State) : Outcome State Fault Refusal :=
  match op, hostCommand op with
  | .setString str, _ =>
    .next (emit (.hostResult .setString true)
      (sendCharacters 0 (str.take (min str.length s.cmdr.chainLength.toNat)) s))
  | _, some (d, n, data, wantAck) =>
    if 255 < data.length then .fault .hostPayloadTooLong
    else .next (commandCall d n data wantAck s)
  | _, none => .next (beginDiscovery s)

/-- A host call (R350): refused with `false` while a procedure runs, otherwise run at once. -/
def hostCall (op : HostOp) (s : State) : Outcome State Fault Refusal :=
  if s.cmdr.proc ≠ .idle then .next (emit (.hostResult (hostOpName op) false) s)
  else acceptedHostCall op s

end Sys2Proof.Machine
end

