-- ==== Sys2Proof/Machine/Receive.lean ====
section
/-! DEFINITION. The Command Dispatcher's shared part (43_dispatcher.md R260 to R263, 42_chain_protocol.md
R236, 44_commander.md R339): what every packet meets before and after the rule of its command. -/

namespace Sys2Proof.Machine

open Sys2Proof

/-- What `execute(n, pkt)` of rule R260 gives: the state, and whether the command was executed rather than
refused by its operand check. -/
structure Executed where
  state : State
  ok : Bool

/-- A command whose rule never refuses its operand (R260). -/
def executed (s : State) : Executed := ⟨s, true⟩

/-- A command whose rule refused its operand: BAD_OPERAND, no ACK (R222, R227, R236). -/
def refusedOperand (n : CmdName) (s : State) : Executed := ⟨raise (.badOperand n) s, false⟩

/-- The destination filter of a node (R262). -/
def nodeAccepts (s : State) (p : Body) : Bool :=
  decide (p.dest = s.node.localAddress) || decide (p.dest = addrBroadcast)

/-- The destination filter of the commander (R339). -/
def commanderAccepts (p : Body) : Bool :=
  decide (p.dest = addrCommander) || decide (p.dest = addrBroadcast)

/-- The payload check (R263, R339): `len(data) < need(n)`. -/
def payloadShort (s : State) (n : CmdName) (p : Body) : Bool :=
  decide (p.data.length < need s.cfg.touchStateLen n)

/-- Rule R236: the ACK of an executed command, with the acknowledged pid as its payload and the address the
node has after the command as its origin. -/
def ackIfRequested (n : CmdName) (p : Body) (s : State) : State :=
  if ackWanted s.cfg n p then nodeSend .up p.origin .ack (pidPayload p.pid) s else s

/-- `handle_node_packet` (R260) around the rule of command `n`: the filter, the payload check, the port of
the command's class, the rule, and the ACK of a command of CLASS_CMD. -/
def nodeReceive (n : CmdName) (p : Body) (rule : State → Executed) (s : State) : State :=
  if nodeAccepts s p = false then s
  else if payloadShort s n p then raise (.shortPayload n) s
  else if (cmdClass n).port ≠ some s.senderPort then s
  else if cmdClass n = .cmd ∧ (rule s).ok then ackIfRequested n p (rule s).state
  else (rule s).state

/-- `handle_commander_packet` (R339) around what the commander does with command `n`. -/
def commanderReceive (n : CmdName) (p : Body) (rule : State → State) (s : State) : State :=
  if commanderAccepts p = false then s
  else if payloadShort s n p then raise (.shortPayload n) s
  else rule s

/-- A packet at an agent: by the rules of its role (R371). -/
def receive (n : CmdName) (p : Body) (atNode : State → Executed) (atCommander : State → State) (s : State) :
    State :=
  match s.cfg.role with
  | .node => nodeReceive n p atNode s
  | .commander => commanderReceive n p atCommander s

/-- What the commander does with a command of CLASS_CMD: nothing (R339, D55). -/
def commanderIgnores (s : State) : State := s

/-- What a node would do with a response. CLASS_RESP is accepted from no port (R261), so `nodeReceive`
never reaches it. -/
def nodeIgnores (s : State) : Executed := executed s

end Sys2Proof.Machine
end

