-- ==== Sys2Proof/Machine/ChainCommands.lean ====
section
/-! DEFINITION. The meanings of the chain commands and of the chain messages from downstream
(42_chain_protocol.md sections 2 and 3; at the commander 44_commander.md section 5). -/

namespace Sys2Proof.Machine

open Sys2Proof Host

/-- RESET at a node (R220). -/
def nodeReset (s : State) : Executed :=
  executed { s with node := { s.node with
    localAddress := addrNull
    chainLength := 0
    propagationMode := false
    busMode := false
    chainState := .unassigned
    probeArmed := false
    lastAnnounce := s.now } }

/-- RESET: R220; ignored by the commander (R339). -/
def execReset (p : Body) (s : State) : Outcome State Fault Refusal :=
  .next (receive .reset p nodeReset commanderIgnores s)

/-- ASSIGN_ADDRESS at a node (R222): an address above 252 is refused. -/
def nodeAssignAddress (p : Body) (s : State) : Executed :=
  if maxNodeAddress < payloadByte p 0 then refusedOperand .assignAddress s
  else executed { s with node := { s.node with
    localAddress := payloadByte p 0
    chainState := .assigned
    probeArmed := false } }

/-- ASSIGN_ADDRESS: R222; ignored by the commander (R339). -/
def execAssignAddress (p : Body) (s : State) : Outcome State Fault Refusal :=
  .next (receive .assignAddress p (nodeAssignAddress p) commanderIgnores s)

/-- ENABLE_PROPAGATION at a node (R223). -/
def nodeEnablePropagation (s : State) : Executed :=
  executed { s with node := { s.node with propagationMode := true } }

/-- ENABLE_PROPAGATION: R223; ignored by the commander (R339). -/
def execEnablePropagation (p : Body) (s : State) : Outcome State Fault Refusal :=
  .next (receive .enablePropagation p nodeEnablePropagation commanderIgnores s)

/-- SET_CHAIN_LENGTH at a node (R224): any u8 is accepted. -/
def nodeSetChainLength (p : Body) (s : State) : Executed :=
  executed { s with node := { s.node with chainLength := payloadByte p 0 } }

/-- SET_CHAIN_LENGTH: R224; ignored by the commander (R339). -/
def execSetChainLength (p : Body) (s : State) : Outcome State Fault Refusal :=
  .next (receive .setChainLength p (nodeSetChainLength p) commanderIgnores s)

/-- START_BUS_MODE at a node (R225): gated on `propagation_mode`, and executed either way. -/
def nodeStartBusMode (s : State) : Executed :=
  if s.node.propagationMode then executed { s with node := { s.node with busMode := true } }
  else executed s

/-- START_BUS_MODE: R225; ignored by the commander (R339). -/
def execStartBusMode (p : Body) (s : State) : Outcome State Fault Refusal :=
  .next (receive .startBusMode p nodeStartBusMode commanderIgnores s)

/-- END_BUS_MODE at a node (R226). -/
def nodeEndBusMode (s : State) : Executed :=
  executed { s with node := { s.node with busMode := false } }

/-- END_BUS_MODE: R226; ignored by the commander (R339). -/
def execEndBusMode (p : Body) (s : State) : Outcome State Fault Refusal :=
  .next (receive .endBusMode p nodeEndBusMode commanderIgnores s)

/-- The address a node adopts from a PROBE's origin (R227): 0 from a sentinel, the next address from a node
address, none where the next address is not assignable. -/
def adoptedAddress (origin : Byte) : Option Byte :=
  if origin = addrNull ∨ origin = addrCommander then some 0
  else if origin ≤ 251 then some (origin + 1)
  else none

/-- The measurement branch of PROBE (R227): PROBE_RESPONSE to the prober, carrying the probe's pid. -/
def answerProbe (p : Body) (s : State) : State :=
  nodeSend .up p.origin .probeResponse (pidPayload p.pid) s

/-- The downstream PROBE of rules R227 and R228. -/
def probeDownstream (s : State) : State := nodeSend .down addrBroadcast .probe [] s

/-- The adoption branch of PROBE (R227) with address `a`: the address is taken, the probe-timeout armed, the
prober answered and the node's own probe sent downstream. -/
def adoptAddress (p : Body) (a : Byte) (s : State) : State :=
  probeDownstream (answerProbe p { s with node := { s.node with
    localAddress := a
    chainState := .assigned
    probeArmed := true
    probeStart := s.now } })

/-- `chain_state in {UNASSIGNED, DISCOVERING}` (R227, R233). -/
def unassignedState (s : State) : Bool :=
  decide (s.node.chainState = .unassigned) || decide (s.node.chainState = .discovering)

/-- PROBE at a node (R227). -/
def nodeProbe (p : Body) (s : State) : Executed :=
  if p.dest = s.node.localAddress ∧ s.node.localAddress ≠ addrNull then executed (answerProbe p s)
  else if p.dest = addrBroadcast ∧ s.cfg.discoveryMode = .nodeToNode ∧ unassignedState s then
    match adoptedAddress p.origin with
    | some a => executed (adoptAddress p a s)
    | none => refusedOperand .probe s
  else executed s

/-- PROBE: R227; ignored by the commander (R339). -/
def execProbe (p : Body) (s : State) : Outcome State Fault Refusal :=
  .next (receive .probe p (nodeProbe p) commanderIgnores s)

/-- `chain_state = ASSIGNED and probe_armed` (R228, R229, R234). -/
def armed (s : State) : Bool := decide (s.node.chainState = .assigned) && s.node.probeArmed

/-- ANNOUNCE at a node, from DOWN (R228): an armed node probes again, without restarting its timeout. -/
def nodeAnnounce (s : State) : Executed :=
  if s.cfg.discoveryMode = .nodeToNode ∧ armed s then executed (probeDownstream s)
  else executed s

/-- ANNOUNCE at the commander (R343): the head probe, not registered and not awaited. -/
def commanderAnnounce (s : State) : State :=
  if s.cfg.discoveryMode = .nodeToNode ∧ s.cmdr.chainLength = 0 then
    commanderSend addrBroadcast .probe [] false s
  else s

/-- ANNOUNCE: R228 at a node, R343 at the commander. -/
def execAnnounce (p : Body) (s : State) : Outcome State Fault Refusal :=
  .next (receive .announce p nodeAnnounce commanderAnnounce s)

/-- PROBE_RESPONSE at a node, from DOWN (R229): one that is addressed to this node (R212), no broadcast. -/
def nodeProbeResponse (p : Body) (s : State) : Executed :=
  if p.dest = s.node.localAddress ∧ armed s = true then
    executed { s with node := { s.node with probeArmed := false, chainState := .relay } }
  else executed s

/-- PROBE_RESPONSE: R229 at a node, `ring_ack` at the commander (R339, R322). -/
def execProbeResponse (p : Body) (s : State) : Outcome State Fault Refusal :=
  .next (receive .probeResponse p (nodeProbeResponse p) (ringAck (payloadWord p 0)) s)

/-- TERMINATOR_ANNOUNCE at a node, from DOWN (R231). -/
def nodeTerminatorAnnounce (p : Body) (s : State) : Executed :=
  if s.node.chainState = .relay then
    if s.node.propagationMode = false then
      executed (nodeSend .up addrBroadcast .terminatorAnnounce [payloadByte p 0]
        { s with node := { s.node with propagationMode := true, chainLength := payloadByte p 0 } })
    else executed { s with node := { s.node with chainLength := payloadByte p 0 } }
  else executed s

/-- TERMINATOR_ANNOUNCE at the commander (R340). -/
def commanderTerminatorAnnounce (p : Body) (s : State) : State :=
  { s with cmdr := { s.cmdr with chainLength := payloadByte p 0 } }

/-- TERMINATOR_ANNOUNCE: R231 at a node, R340 at the commander. -/
def execTerminatorAnnounce (p : Body) (s : State) : Outcome State Fault Refusal :=
  .next (receive .terminatorAnnounce p (nodeTerminatorAnnounce p) (commanderTerminatorAnnounce p) s)

end Sys2Proof.Machine
end

