-- ==== Sys2Proof/Machine/RenderCommands.lean ====
section
/-! DEFINITION. The meanings of the render commands (43_dispatcher.md section 2): each asks the render side
to change fields of the pending render state and writes no register of the block. The commander ignores
them (44_commander.md R339). -/

namespace Sys2Proof.Machine

open Sys2Proof Host

/-- `emit RenderSet(field, value)` for each request, in order (R60). -/
def emitRenderSets (rs : List RenderSet) (s : State) : State :=
  { s with out := s.out ++ rs.map Output.renderSet }

/-- A multi-field command (R263): its RenderSet events between `freeze <- 1` and `freeze <- 0`. -/
def frozen (rs : List RenderSet) (s : State) : Executed :=
  executed (setFreeze false (emitRenderSets rs (setFreeze true s)))

/-- A single-field render command. -/
def renderOne (r : RenderSet) (s : State) : Executed := executed (emitRenderSets [r] s)

/-- SET_BRIGHTNESS (R270). -/
def execSetBrightness (p : Body) (s : State) : Outcome State Fault Refusal :=
  .next (receive .setBrightness p (renderOne (.brightness (payloadByte p 0))) commanderIgnores s)

/-- SET_DISPLAY_COLORS (R271), multi-field. -/
def execSetDisplayColors (p : Body) (s : State) : Outcome State Fault Refusal :=
  .next (receive .setDisplayColors p
    (frozen [.displayColorA (payloadRgb p 0), .displayColorB (payloadRgb p 3)]) commanderIgnores s)

/-- SET_BACKGROUND_COLORS (R272), multi-field. -/
def execSetBackgroundColors (p : Body) (s : State) : Outcome State Fault Refusal :=
  .next (receive .setBackgroundColors p
    (frozen [.backgroundColorA (payloadRgb p 0), .backgroundColorB (payloadRgb p 3)]) commanderIgnores s)

/-- SET_BACKLIGHT (R273), multi-field. -/
def execSetBacklight (p : Body) (s : State) : Outcome State Fault Refusal :=
  .next (receive .setBacklight p
    (frozen [.backlightColor (payloadRgb p 0), .backlightBrightness (payloadByte p 3)]) commanderIgnores s)

/-- SET_GRADIENT (R274), multi-field; the type codes pass unchanged. -/
def execSetGradient (p : Body) (s : State) : Outcome State Fault Refusal :=
  .next (receive .setGradient p
    (frozen [.displayGradient (payloadByte p 0), .backgroundGradient (payloadByte p 1)]) commanderIgnores s)

/-- SET_TRANSITION_TYPE (R275); the code passes without a range check (90_conflicts.md C3). -/
def execSetTransitionType (p : Body) (s : State) : Outcome State Fault Refusal :=
  .next (receive .setTransitionType p (renderOne (.transitionType (payloadByte p 0))) commanderIgnores s)

/-- SET_TRANSITION_DURATION (R276): big-endian milliseconds. -/
def execSetTransitionDuration (p : Body) (s : State) : Outcome State Fault Refusal :=
  .next (receive .setTransitionDuration p (renderOne (.transitionDuration (payloadWord p 0)))
    commanderIgnores s)

/-- SET_TRANSITION_INTERPOLATION (R277); the curve code passes unchanged. -/
def execSetTransitionInterpolation (p : Body) (s : State) : Outcome State Fault Refusal :=
  .next (receive .setTransitionInterpolation p (renderOne (.transitionInterpolation (payloadByte p 0)))
    commanderIgnores s)

/-- SET_FRAME_BLENDING (R278). -/
def execSetFrameBlending (p : Body) (s : State) : Outcome State Fault Refusal :=
  .next (receive .setFrameBlending p (renderOne (.frameBlending (payloadByte p 0))) commanderIgnores s)

/-- SET_CHARACTER (R279): one field, but multi-field in rule R263's sense. -/
def execSetCharacter (p : Body) (s : State) : Outcome State Fault Refusal :=
  .next (receive .setCharacter p (frozen [.glyph (payloadByte p 0)]) commanderIgnores s)

/-- SHOW at a node (R280): `emit Trigger()`. -/
def nodeShow (s : State) : Executed := executed (emit .trigger s)

/-- SHOW (R280). -/
def execShow (p : Body) (s : State) : Outcome State Fault Refusal :=
  .next (receive .showCmd p nodeShow commanderIgnores s)

end Sys2Proof.Machine
end

