-- ==== Sys2Proof/Machine/Responses.lean ====
section
/-! DEFINITION. The meanings of the responses for the commander: ACK, PANIC, READY_STATUS and TOUCH_STATE.
A node ignores them from either port (42_chain_protocol.md R232); at the commander they do what
44_commander.md R339 to R342 say. Their sending is in Machine/NodeEvents.lean and Machine/Receive.lean. -/

namespace Sys2Proof.Machine

open Sys2Proof Host

/-- ACK: `ring_ack` of the pid its payload carries (R339, R322). -/
def execAck (p : Body) (s : State) : Outcome State Fault Refusal :=
  .next (receive .ack p nodeIgnores (ringAck (payloadWord p 0)) s)

/-- PANIC at the commander (R341): the latch takes the packet's `first_hop`, the last one winning. -/
def commanderPanic (p : Body) (s : State) : State := latchPanic p.firstHop s

/-- PANIC: R341. -/
def execPanic (p : Body) (s : State) : Outcome State Fault Refusal :=
  .next (receive .panic p nodeIgnores (commanderPanic p) s)

/-- READY_STATUS: `emit host_ready(pkt.origin)` (R342). -/
def execReadyStatus (p : Body) (s : State) : Outcome State Fault Refusal :=
  .next (receive .readyStatus p nodeIgnores (emit (.hostReady p.origin)) s)

/-- TOUCH_STATE at the commander (R342): the reading is handed to the host. Its layout is bytes 0 to
TOUCH_STATE_LEN - 1 of the payload, and the bytes beyond are ignored (R132, notes/assumptions/9.md). -/
def commanderTouchState (p : Body) (s : State) : State :=
  emit (.hostTouch p.origin (p.data.take s.cfg.touchStateLen)) s

/-- TOUCH_STATE: R342. -/
def execTouchState (p : Body) (s : State) : Outcome State Fault Refusal :=
  .next (receive .touchState p nodeIgnores (commanderTouchState p) s)

end Sys2Proof.Machine
end

