-- ==== Sys2Proof/Machine/TouchStorage.lean ====
section
/-! DEFINITION. The meanings of the touch and storage commands (43_dispatcher.md section 3). The commander
ignores them (44_commander.md R339). -/

namespace Sys2Proof.Machine

open Sys2Proof Host

/-- TOUCH_READ at a node (R281): TOUCH_STATE to the command's origin, with the reading the level has at
this moment (R287). -/
def nodeTouchRead (p : Body) (s : State) : Executed :=
  executed (nodeSend .up p.origin .touchState s.touchLevel s)

/-- TOUCH_READ (R281). -/
def execTouchRead (p : Body) (s : State) : Outcome State Fault Refusal :=
  .next (receive .touchRead p (nodeTouchRead p) commanderIgnores s)

/-- CALIBRATE_TOUCH at a node (R282): all of the payload, uninterpreted. -/
def nodeCalibrateTouch (p : Body) (s : State) : Executed := executed (emit (.touchCalibrate p.data) s)

/-- CALIBRATE_TOUCH (R282). -/
def execCalibrateTouch (p : Body) (s : State) : Outcome State Fault Refusal :=
  .next (receive .calibrateTouch p (nodeCalibrateTouch p) commanderIgnores s)

/-- SAVE_CONFIG at a node (R283): only the request; no outcome is reported (R368). -/
def nodeSaveConfig (s : State) : Executed := executed (emit .storageSave s)

/-- SAVE_CONFIG (R283). -/
def execSaveConfig (p : Body) (s : State) : Outcome State Fault Refusal :=
  .next (receive .saveConfig p nodeSaveConfig commanderIgnores s)

end Sys2Proof.Machine
end

