-- ==== Sys2Proof/Machine/Dispatch.lean ====
section
/-! DEFINITION. One arm per instruction of the opcode table, each a call of its meaning. -/

namespace Sys2Proof.Machine

open Sys2Proof

def exec (i : Instr) (s : State) : Host.Outcome State Fault Refusal :=
  match i with
  | .reset p => Sys2Proof.Machine.execReset p s
  | .assignAddress p => Sys2Proof.Machine.execAssignAddress p s
  | .enablePropagation p => Sys2Proof.Machine.execEnablePropagation p s
  | .setChainLength p => Sys2Proof.Machine.execSetChainLength p s
  | .startBusMode p => Sys2Proof.Machine.execStartBusMode p s
  | .endBusMode p => Sys2Proof.Machine.execEndBusMode p s
  | .announce p => Sys2Proof.Machine.execAnnounce p s
  | .probe p => Sys2Proof.Machine.execProbe p s
  | .probeResponse p => Sys2Proof.Machine.execProbeResponse p s
  | .terminatorAnnounce p => Sys2Proof.Machine.execTerminatorAnnounce p s
  | .ack p => Sys2Proof.Machine.execAck p s
  | .panic p => Sys2Proof.Machine.execPanic p s
  | .readyStatus p => Sys2Proof.Machine.execReadyStatus p s
  | .touchState p => Sys2Proof.Machine.execTouchState p s
  | .setBrightness p => Sys2Proof.Machine.execSetBrightness p s
  | .setDisplayColors p => Sys2Proof.Machine.execSetDisplayColors p s
  | .setBackgroundColors p => Sys2Proof.Machine.execSetBackgroundColors p s
  | .setBacklight p => Sys2Proof.Machine.execSetBacklight p s
  | .setGradient p => Sys2Proof.Machine.execSetGradient p s
  | .setTransitionType p => Sys2Proof.Machine.execSetTransitionType p s
  | .setTransitionDuration p => Sys2Proof.Machine.execSetTransitionDuration p s
  | .setTransitionInterpolation p => Sys2Proof.Machine.execSetTransitionInterpolation p s
  | .setFrameBlending p => Sys2Proof.Machine.execSetFrameBlending p s
  | .setCharacter p => Sys2Proof.Machine.execSetCharacter p s
  | .showCmd p => Sys2Proof.Machine.execShow p s
  | .touchRead p => Sys2Proof.Machine.execTouchRead p s
  | .calibrateTouch p => Sys2Proof.Machine.execCalibrateTouch p s
  | .saveConfig p => Sys2Proof.Machine.execSaveConfig p s

end Sys2Proof.Machine
end

