-- ==== Sys2Proof/Machine/Framer.lean ====
section
/-! DEFINITION. The Byte Framer (40_framer.md): the step of rule R152 over one received byte. -/

namespace Sys2Proof.Machine

open Sys2Proof

/-- CAP_MAX of a configuration (R11): 264 under P1, the parameter CAP_MAX_P2 under P2. -/
def capMax (cfg : Config) : Nat :=
  match cfg.profile with
  | .p1 => 264
  | .p2 => cfg.capMaxP2

/-- The two events a framer raises (R152). -/
inductive FramerEvent where
  | frameRestarted
  | captureOverflow
deriving DecidableEq, Repr

/-- The error event of a framer event on the framer's port (R360). -/
def FramerEvent.on (e : FramerEvent) (p : Port) : ErrorEvent :=
  match e with
  | .frameRestarted => .frameRestarted p
  | .captureOverflow => .captureOverflow p

/-- What one framer step gives: the framer, the event it raised, and the frame it completed. -/
structure FramerResult where
  framer : Framer
  event : Option FramerEvent
  frame : Option (List Byte)
deriving DecidableEq, Repr

/-- The sliding of the window (R153), whatever the framer's state. -/
def Framer.slide (f : Framer) (b : Byte) : Framer :=
  { f with win := f.win.slide b, winCount := min (f.winCount + 1) 4 }

/-- Whether the window holds the start pattern (R153, R154). -/
def Framer.atStart (cfg : Config) (f : Framer) : Bool :=
  decide (f.winCount = 4) && decide (f.win = cfg.startPattern)

/-- The frame a capture completes, if it does: by length under P1 (R156), by the end pattern under P2, whose
four bytes are trimmed (R157). `win` is the window after the capture's last byte. -/
def completedFrame (cfg : Config) (win : Pattern) (cap : List Byte) : Option (List Byte) :=
  match cfg.profile with
  | .p1 =>
    if p1HeaderLen ≤ cap.length ∧ cap.length = p1HeaderLen + (byteAt cap 8).toNat then some cap else none
  | .p2 =>
    if win = cfg.endPattern ∧ 4 ≤ cap.length then some (cap.take (cap.length - 4)) else none

/-- `framer_step(F, b)` (R152). -/
def framerStep (cfg : Config) (f : Framer) (b : Byte) : FramerResult :=
  if (f.slide b).atStart cfg then
    { framer := { f.slide b with fstate := .capture, cap := [] }
      event := if f.fstate = .capture then some .frameRestarted else none
      frame := none }
  else if f.fstate = .hunt then
    { framer := f.slide b, event := none, frame := none }
  else if f.cap.length = capMax cfg then
    { framer := { f.slide b with fstate := .hunt, cap := [] }
      event := some .captureOverflow
      frame := none }
  else
    match completedFrame cfg (f.slide b).win (f.cap ++ [b]) with
    | some c => { framer := { f.slide b with fstate := .hunt, cap := [] }, event := none, frame := some c }
    | none => { framer := { f.slide b with cap := f.cap ++ [b] }, event := none, frame := none }

/-- A framer fed a byte sequence: the framer at the end and the frames it handed over, in order. -/
def feed (cfg : Config) (f : Framer) : List Byte → Framer × List (List Byte)
  | [] => (f, [])
  | b :: rest =>
    ((feed cfg (framerStep cfg f b).framer rest).1,
     (framerStep cfg f b).frame.toList ++ (feed cfg (framerStep cfg f b).framer rest).2)

end Sys2Proof.Machine
end

