-- ==== Sys2Proof/Machine/NodeEvents.lean ====
section
/-! DEFINITION. What a node does on the input events that carry no packet: its tick (42_chain_protocol.md
R233, R234; 60_exceptions.md R370), the panic request (R235) and the render side's completion edge
(43_dispatcher.md R290). -/

namespace Sys2Proof.Machine

open Sys2Proof

/-- The announce rule (R233): one ANNOUNCE, however many intervals have passed. -/
def announceRule (s : State) : State :=
  if unassignedState s ∧ s.cfg.discoveryIntervalMs.toNat ≤ elapsed s s.node.lastAnnounce then
    let s1 := originate .up addrNull addrBroadcast addrNull false .announce [] s
    { s1 with node := { s1.node with lastAnnounce := s1.now, chainState := .discovering } }
  else s

/-- Whether the probe-timeout has passed (R234). -/
def probeTimedOut (s : State) : Bool :=
  decide (s.cfg.discoveryMode = .nodeToNode) && armed s &&
    decide (s.cfg.probeTimeoutMult * s.cfg.discoveryIntervalMs.toNat ≤ elapsed s s.node.probeStart)

/-- The probe-timeout rule (R234): the node concludes that it is the chain's last. -/
def probeTimeoutRule (s : State) : State :=
  if probeTimedOut s then
    nodeSend .up addrBroadcast .terminatorAnnounce [s.node.localAddress + 1]
      { s with node := { s.node with
        probeArmed := false
        chainState := .terminating
        propagationMode := true
        chainLength := s.node.localAddress + 1 } }
  else s

/-- The error indication (R370), recomputed on every tick. -/
def errorIndication (s : State) : State :=
  { s with node := { s.node with
    errorStatus :=
      if s.cfg.upstreamGraceMs.toNat ≤ elapsed s s.node.lastUpRx then
        if s.node.localAddress = addrNull then .neverAssigned else .assignedSilent
      else .none } }

/-- A node's tick (R365): the three rules in this order, the time being already taken. -/
def nodeTick (s : State) : State := errorIndication (probeTimeoutRule (announceRule s))

/-- `panic_request(h)` at a node (R235): PANIC to the commander, its hop in `first_hop`. -/
def nodePanicRequest (h : Byte) (s : State) : State :=
  originate .up s.node.localAddress addrCommander h false .panic [] s

/-- `transition_complete()` at a node (R290): READY_STATUS, if completion is forwarded and the node has an
address. -/
def nodeTransitionComplete (s : State) : State :=
  if s.cfg.forwardCompletion = true ∧ s.node.localAddress ≠ addrNull then
    nodeSend .up addrCommander .readyStatus [] s
  else s

end Sys2Proof.Machine
end

