-- ==== Sys2Proof/Machine/Events.lean ====
section
/-! DEFINITION. The handling of one input event (60_exceptions.md R364), completely and by the rules of the
agent's role (20_memory.md R87, R365): reception up to the execution of the packet it completes
(40_framer.md R150, R151), transmission, time, the collaborators' inputs and the host's calls. -/

namespace Sys2Proof.Machine

open Sys2Proof Host

/-- The codec's drop as an error event on the framer's port (R360). -/
def dropEvent (r : DropReason) (p : Port) : ErrorEvent :=
  match r with
  | .shortFrame => .shortFrame p
  | .lengthMismatch => .lengthMismatch p
  | .oddLength => .oddLength p
  | .badNibble => .badNibble p
  | .oversized => .oversized p

/-- `if p = UP: last_up_rx <- now` (R150, R370). -/
def noteUpstream (p : Port) (s : State) : State :=
  match p with
  | .up => { s with node := { s.node with lastUpRx := s.now } }
  | .down => s

/-- The state in which the packet of a frame that arrived on port `p` is executed: the arrival is noted and
the port is the sender context (R150, R260). -/
def beforeExec (p : Port) (s : State) : State := { noteUpstream p s with senderPort := p }

/-- A complete frame of port `p`: dropped with its event (R187), of an unknown code and without effect
(R133), or an instruction, which is executed. -/
def runFrame (p : Port) (c : List Byte) (s : State) : Outcome State Fault Refusal :=
  match decode s.cfg c with
  | .dropped r => .next (raise (dropEvent r p) s)
  | .unknown _ => .next (noteUpstream p s)
  | .instr i => exec i (beforeExec p s)

/-- The state after port `p`'s framer has consumed byte `b` (R150, R152). -/
def framed (p : Port) (b : Byte) (s : State) : State :=
  raiseOption ((framerStep s.cfg (s.framer p) b).event.map fun e => e.on p)
    (s.setFramer p (framerStep s.cfg (s.framer p) b).framer)

/-- The framer's part of a receive event, and the frame it completes, if any (R150, R151). -/
def acceptByte (p : Port) (b : Byte) (s : State) : Outcome State Fault Refusal :=
  match (framerStep s.cfg (s.framer p) b).frame with
  | none => .next (framed p b s)
  | some c => runFrame p c (framed p b s)

/-- Whether a byte that arrives on port `p` is discarded for half-duplex (R90). -/
def rxBlocked (p : Port) (s : State) : Bool :=
  decide (s.cfg.rxDuringTx = .drop) && !(s.txq p).isEmpty

/-- The forwarding of a received byte (R89, R150). -/
def forwardReceived (p : Port) (b : Byte) (s : State) : State :=
  if s.node.propagationMode = true ∧ s.node.busMode = false then forward p.other b s else s

/-- `rx_byte(p, b)` at a node (R150). -/
def nodeRx (p : Port) (b : Byte) (s : State) : Outcome State Fault Refusal :=
  if rxBlocked p s then .next (raise (.rxDropped p) s)
  else if s.node.busMode = true ∧ p = .down then .next s
  else acceptByte p b (forwardReceived p b s)

/-- `rx_byte(DOWN, b)` at the commander (R151). -/
def commanderRx (b : Byte) (s : State) : Outcome State Fault Refusal :=
  if rxBlocked .down s then .next (raise (.rxDropped .down) s) else acceptByte .down b s

/-- `tx_done(port)` (R55): the head byte of the port's FIFO has been transmitted. -/
def txDone (p : Port) (s : State) : Outcome State Fault Refusal :=
  match s.txq p with
  | [] => .fault (.txDoneOnEmpty p)
  | b :: rest => .next (emit (.transmitted p b) (s.setTxq p rest))

/-- The time a tick delivers is taken (R56, R151). -/
def takeTime (t : U32) (s : State) : State := { s with now := t, timeKnown := true }

/-- Whether a tick's time breaks the duty of rule R397 (a): it lies before the last time value, or 2^31 ms
or more after it, which a difference modulo 2^32 does not tell apart. -/
def timeDutyBroken (t : U32) (s : State) : Bool :=
  s.timeKnown && decide (2 ^ 31 ≤ (t - s.now).toNat)

/-- `tick(now)` (R56, R364): by the rules of the agent's role. -/
def tick (t : U32) (s : State) : Outcome State Fault Refusal :=
  if timeDutyBroken t s then .fault .timeDuty
  else
    match s.cfg.role with
    | .node => .next (nodeTick (takeTime t s))
    | .commander => .next (commanderTick (takeTime t s))

/-- Power-on or an external reset of the agent at time `now` (R390): every register at its reset value. The
configuration, the environment's waiting events, the touch collaborator's level and the oracle's position
are no registers of the block and stay. -/
def externalReset (now : U32) (s : State) : State :=
  { State.resetWith s.cfg now true with
    drawCount := s.drawCount
    touchLevel := s.touchLevel
    inputs := s.inputs }

/-- One input event, handled completely (R364, R365, R87). -/
def handleEvent (e : Event) (s : State) : Outcome State Fault Refusal :=
  match e with
  | .rxByte p b =>
    match s.cfg.role, p with
    | .node, _ => nodeRx p b s
    | .commander, .down => commanderRx b s
    | .commander, .up => .fault (.noSuchPort .up)
  | .txDone p =>
    match s.cfg.role, p with
    | .node, _ => txDone p s
    | .commander, .down => txDone .down s
    | .commander, .up => .fault (.noSuchPort .up)
  | .tick t => tick t s
  | .transitionComplete =>
    match s.cfg.role with
    | .node => .next (nodeTransitionComplete s)
    | .commander => .fault .eventOfOtherRole
  | .panicRequest h =>
    match s.cfg.role with
    | .node => .next (nodePanicRequest h s)
    | .commander => .fault .panicRequestAtCommander
  | .hostCall op =>
    match s.cfg.role with
    | .node => .fault .eventOfOtherRole
    | .commander => hostCall op s
  | .externalReset now => .next (externalReset now s)
  | .touchLevel reading =>
    if reading.length = s.cfg.touchStateLen then .next { s with touchLevel := reading }
    else .fault .touchWidth

/-- The state at the start of a step: the output and error events of the step before are over (R16: they
are one-step events). -/
def startStep (s : State) : State := { s with out := [], raised := [] }

/-- The state in which the next event is handled: a step has begun, and the event is taken. -/
def beginEvent (s : State) : State := { startStep s with inputs := s.inputs.tail }

/-- One step: the event the environment delivers next is handled; with none delivered the agent waits
(R391, R365). -/
def stepEvent (s : State) : Outcome State Fault Refusal :=
  match s.inputs with
  | [] => .next (startStep s)
  | e :: _ => handleEvent e (beginEvent s)

/-! ## Placing an instruction where the next step takes it -/

/-- The port an instruction's class is accepted from (R261); DOWN for a response, which travels upstream. -/
def arrivalPort (cfg : Config) (w : Nat) : Port :=
  match cfg.codes.nameOf (BitVec.ofNat 16 w) with
  | some n => (cmdClass n).port.getD .down
  | none => .up

/-- The port on which the agent receives the instruction: the commander has only DOWN (R40). -/
def fetchPort (cfg : Config) (w : Nat) : Port :=
  match cfg.role with
  | .node => arrivalPort cfg w
  | .commander => .down

/-- The wire bytes from the start pattern to the byte that completes the frame: up to the last data byte
under P1 (R156), up to the last end-pattern byte under P2 (R157). -/
def framingBytes (cfg : Config) (p : Packet) : List Byte :=
  cfg.startPattern.toList ++ frameBody cfg p ++
    match cfg.profile with
    | .p1 => []
    | .p2 => cfg.endPattern.toList

/-- The state in which the very next step completes, decodes and executes the opcode table's word `w`: the
port's framer has received every byte of its frame but the last, which waits as the next input. Where the
agent would discard the byte, because the port's FIFO is not empty under DROP (R90) or because it is a
node's DOWN port in bus mode (R91), the fetch clears that; nothing else changes. -/
def placeWord (w : Nat) (s : State) : State :=
  let p := fetchPort s.cfg w
  let bytes := framingBytes s.cfg (tablePacket s.cfg w)
  let f := (feed s.cfg (s.framer p) bytes.dropLast).1
  let s1 := (s.setFramer p f).setTxq p (if rxBlocked p s then [] else s.txq p)
  { s1 with
    node := { s1.node with
      busMode := if s.cfg.role = .node ∧ p = .down then false else s1.node.busMode }
    inputs := .rxByte p (bytes.getLastD 0) :: s.inputs }

end Sys2Proof.Machine
end

