-- ==== Sys2Proof/Machine/Step.lean ====
section
/-! DEFINITION. The machine's step, and the placing of an opcode-table word where the next step executes
it. Both call Machine/Events.lean. -/

namespace Sys2Proof.Machine

open Sys2Proof

/-- One step of the agent: it handles the next event its environment delivers (R365). -/
def step (s : State) : Host.Outcome State Fault Refusal := stepEvent s

/-- The state with the instruction of the opcode table's word `w` as the one the next step executes
(notes/assumptions/14.md). The table's words all have 16 bits; any other width places nothing. -/
def State.withFetchWord (s : State) (nbits w : Nat) : State :=
  if nbits = 16 ∧ w < 65536 then placeWord w s else s

end Sys2Proof.Machine
end

