-- ==== Sys2Proof/Machine/Chain.lean ====
section
/-! DEFINITION. A system (10_state.md R30): one commander and the nodes of a linear chain, each an agent that
steps on its own events (60_exceptions.md R374), joined by links that deliver bytes in order (R67, 20_memory.md
R94). The order of events is the environment's: each operation here is one choice of it. The pass-through
path of bus mode is the environment's too and is not here (00_scope.md R8). -/

namespace Sys2Proof.Machine

open Sys2Proof Host

/-- One commander and nodes 0, 1, 2, … counted from it (R30). -/
structure Chain where
  commander : State
  nodes : List State
deriving DecidableEq, Repr

/-- An agent of the chain. -/
inductive AgentId where
  | commander
  | node (k : Nat)
deriving DecidableEq, Repr

/-- The state of an agent. -/
def chainAgent (c : Chain) : AgentId → Option State
  | .commander => some c.commander
  | .node k => c.nodes[k]?

/-- Write the state of an agent. -/
def setChainAgent (c : Chain) (a : AgentId) (s : State) : Chain :=
  match a with
  | .commander => { c with commander := s }
  | .node k => { c with nodes := c.nodes.set k s }

/-- The port linked to a port of an agent, in a chain of `n` nodes (R30). The last node's DOWN port is
linked to nothing. -/
def chainLink (n : Nat) : AgentId → Port → Option (AgentId × Port)
  | .commander, .up => none
  | .commander, .down => if 0 < n then some (.node 0, .up) else none
  | .node 0, .up => if 0 < n then some (.commander, .down) else none
  | .node (k + 1), .up => if k + 1 < n then some (.node k, .down) else none
  | .node k, .down => if k + 1 < n then some (.node (k + 1), .up) else none

/-- The environment delivers an event to an agent, which handles it in one step of its own; no other agent
changes (R374, R94). -/
def deliver (a : AgentId) (e : Event) (c : Chain) : Outcome Chain Fault Refusal :=
  match chainAgent c a with
  | none => .fault .noSuchAgent
  | some s =>
    match step { s with inputs := e :: s.inputs } with
    | .next t => .next (setChainAgent c a t)
    | .fault r => .fault r
    | .refused r => .refused r

/-- A port transmits its head byte: the sender handles `tx_done`, and the byte arrives at the linked port
(R67, R80). Where nothing is linked the byte is lost (R67). -/
def transmit (a : AgentId) (p : Port) (c : Chain) : Outcome Chain Fault Refusal :=
  match (chainAgent c a).bind fun s => (s.txq p).head? with
  | none => .fault (.txDoneOnEmpty p)
  | some b =>
    match deliver a (.txDone p) c with
    | .next c1 =>
      match chainLink c.nodes.length a p with
      | some (a', p') => deliver a' (.rxByte p' b) c1
      | none => .next c1
    | .fault r => .fault r
    | .refused r => .refused r

/-- A chain right after reset at time 0 (R374, R390): a commander of one configuration and a node of each of
the others. Each agent has an oracle of its own. -/
def chainReset (commander : Config) (nodes : List Config) : Chain where
  commander := State.resetWith { commander with role := .commander, drawSource := 0 } 0 true
  nodes := nodes.mapIdx fun k cfg =>
    State.resetWith { cfg with role := .node, drawSource := k + 1 } 0 true

/-- Two agents agree on what rule R393 asks to be the same in every agent of a chain: PROFILE, the sync
patterns, the command codes and DISCOVERY_MODE. END_P2 is the reverse of SYNC_P2 (R10). -/
def agree (c d : Config) : Bool :=
  decide (c.profile = d.profile) && decide (c.syncP1 = d.syncP1) && decide (c.syncP2 = d.syncP2) &&
    decide (c.codes = d.codes) && decide (c.discoveryMode = d.discoveryMode)

/-- The chains the spec speaks of (R30, R393): one commander, and nodes that agree with it. -/
def chainWf (c : Chain) : Bool :=
  decide (c.commander.cfg.role = .commander) &&
    c.nodes.all fun s => decide (s.cfg.role = .node) && agree s.cfg c.commander.cfg

end Sys2Proof.Machine
end

