-- ==== Sys2Proof/Safety.lean ====
section
/-! DEFINITION. The terms in which claims about the machine are made: which instruction a step executes and
in which state, the conditions under which a command reaches its rule, what the environment owes
(70_reset_and_hazards.md R397), and the invariants of a run. -/

namespace Sys2Proof.Machine

open Sys2Proof

/-! ## The instruction a step executes -/

/-- Whether a byte on port `p` is framed at all: not discarded for half-duplex (R90) nor as a byte from DOWN
in bus mode (R91), and on a port the agent has (R30). -/
def framesByte (s : State) (p : Port) : Bool :=
  !rxBlocked p s &&
    match s.cfg.role with
    | .node => !(s.node.busMode && decide (p = .down))
    | .commander => decide (p = .down)

/-- The byte the next step receives, and its port, if that is the next event. -/
def nextByte (s : State) : Option (Port × Byte) :=
  match s.inputs with
  | .rxByte p b :: _ => some (p, b)
  | _ => none

/-- The instruction that the next step executes, and the port its frame arrived on. -/
def nextInstr (s : State) : Option (Port × Instr) :=
  match nextByte s with
  | none => none
  | some (p, b) =>
    if framesByte s p = false then none
    else
      match (framerStep s.cfg (s.framer p) b).frame with
      | none => none
      | some c =>
        match decode s.cfg c with
        | .instr i => some (p, i)
        | _ => none

/-- The state in which a step executes the instruction that byte `b` on port `p` completes: at a node the
byte has been forwarded under the modes that held when it arrived (R400), the framer has taken it, and the
packet's arrival is noted. -/
def arrival (p : Port) (b : Byte) (s : State) : State :=
  match s.cfg.role with
  | .node => beforeExec p (framed p b (forwardReceived p b (beginEvent s)))
  | .commander => beforeExec p (framed p b (beginEvent s))

/-! ## When a command reaches its rule -/

/-- The packet passes a node's destination filter (R262) and payload check (R263). -/
def Passes (n : CmdName) (p : Body) (s : State) : Prop :=
  s.cfg.role = .node ∧ (p.dest = s.node.localAddress ∨ p.dest = addrBroadcast) ∧
    need s.cfg.touchStateLen n ≤ p.data.length

/-- A command of CLASS_CMD that is executed at a node (R260, R261). -/
def FromUp (n : CmdName) (p : Body) (s : State) : Prop := Passes n p s ∧ s.senderPort = .up

/-- A message of CLASS_UP_MSG that is executed at a node (R260, R261). -/
def FromDown (n : CmdName) (p : Body) (s : State) : Prop := Passes n p s ∧ s.senderPort = .down

/-- A packet that the commander handles (R339). -/
def AtCommander (n : CmdName) (p : Body) (s : State) : Prop :=
  s.cfg.role = .commander ∧ (p.dest = addrCommander ∨ p.dest = addrBroadcast) ∧
    need s.cfg.touchStateLen n ≤ p.data.length

/-- The FIFO of a port has room for the frames of some packets. -/
def Room (s : State) (p : Port) (pkts : List Packet) : Prop :=
  (s.txq p).length + (pkts.flatMap (encodePacket s.cfg)).length ≤ s.cfg.txFifoDepth

/-! ## The commander's wait -/

/-- The answer to the awaited request is in the ring (R323). -/
def Answered (s : State) : Prop :=
  ∃ e ∈ s.cmdr.ring, e.valid = true ∧ e.pid = s.cmdr.waitPid ∧ e.acked = true

/-- At time `t` the deadline has passed without an answer (R323). -/
def TimedOut (s : State) (t : U32) : Prop :=
  ¬Answered s ∧ s.cfg.ackTimeoutMs.toNat ≤ (t - s.cmdr.waitStart).toNat

/-- At time `t` there is no answer and the deadline has not passed (R323). -/
def StillWaiting (s : State) (t : U32) : Prop :=
  ¬Answered s ∧ (t - s.cmdr.waitStart).toNat < s.cfg.ackTimeoutMs.toNat

/-! ## What the environment owes -/

/-- The duties of rule R397 and the port, role and width facts of 10_state.md for the next event. -/
def EnvDuty (s : State) : Prop :=
  match s.inputs with
  | [] => True
  | .rxByte p _ :: _ => s.cfg.role = .commander → p = .down
  | .txDone p :: _ => s.txq p ≠ [] ∧ (s.cfg.role = .commander → p = .down)
  | .tick t :: _ => s.timeKnown = true → (t - s.now).toNat < 2 ^ 31
  | .transitionComplete :: _ => s.cfg.role = .node
  | .panicRequest _ :: _ => s.cfg.role = .node
  | .hostCall op :: _ =>
    s.cfg.role = .commander ∧
      ∀ d n data ack, hostCommand op = some (d, n, data, ack) → data.length ≤ 255
  | .externalReset _ :: _ => True
  | .touchLevel reading :: _ => reading.length = s.cfg.touchStateLen

/-! ## Invariants -/

/-- Rule R213: the discovery state and the address agree, the probe-timeout runs only at an ASSIGNED node,
and a reserved address is never stored. -/
abbrev AddressInv (n : NodeRegs) : Prop :=
  ((n.chainState = .unassigned ∨ n.chainState = .discovering) ↔ n.localAddress = addrNull) ∧
    (n.probeArmed = true → n.chainState = .assigned) ∧
    n.localAddress ≠ addrCommander ∧ n.localAddress ≠ addrBroadcast

/-- Bus mode and the terminating state hold only with propagation enabled: R225 gates the one, R234 sets it
with the other, and only RESET, which clears all three, clears it (R33). -/
abbrev ModeInv (n : NodeRegs) : Prop :=
  (n.busMode = true → n.propagationMode = true) ∧
    (n.chainState = .terminating → n.propagationMode = true)

/-- A framer between steps (R40): the bounds of its counter and capture, a capture only in CAPTURE, and under
P1 a capture that its length field has not completed. -/
abbrev FramerInv (cfg : Config) (f : Framer) : Prop :=
  f.winCount ≤ 4 ∧ f.cap.length ≤ capMax cfg ∧ (f.fstate = .hunt → f.cap = []) ∧
    (f.fstate = .capture → f.winCount = 4) ∧
    (cfg.profile = .p1 → f.cap.length < 9 ∨ f.cap.length < 9 + (byteAt f.cap 8).toNat)

/-- Each TX FIFO holds at most TX_FIFO_DEPTH bytes (R41). -/
abbrev FifoInv (s : State) : Prop :=
  s.txUp.length ≤ s.cfg.txFifoDepth ∧ s.txDown.length ≤ s.cfg.txFifoDepth

/-- The phases of a procedure (R330 to R338). -/
abbrev PhaseOf (c : CommanderRegs) : Prop :=
  match c.proc with
  | .idle => True
  | .discover => c.phase = .aWait ∨ c.phase = .eWait
  | .recover => c.phase = .raWait ∨ c.phase = .reWait ∨ c.phase = .mWait
  | .sendWait => c.phase = .sWait

/-- The awaited request is the newest entry of the ring and is still valid (R404). -/
abbrev AwaitsNewest (c : CommanderRegs) : Prop :=
  c.proc ≠ .idle →
    ∃ e, c.ring[(c.ringW - 1).val]? = some e ∧ e.valid = true ∧ e.pid = c.waitPid

/-- The procedure variables in their ranges (R48), and while a phase waits on an address, that address
assignable (R330, R334, R335, R338). -/
abbrev RangeInv (c : CommanderRegs) : Prop :=
  c.i ≤ 253 ∧ c.recA ≤ 253 ∧
    (c.proc ≠ .idle → c.phase = .aWait ∨ c.phase = .eWait ∨ c.phase = .mWait → c.i ≤ 252) ∧
    (c.proc ≠ .idle → c.phase = .raWait ∨ c.phase = .reWait → c.recA ≤ 252) ∧
    (c.proc ≠ .idle → c.phase = .sWait → c.waitDest ≤ maxNodeAddress)

/-- The commander between steps: eight ring entries (R47), a phase of its procedure (R48), an awaited
request that the ring still holds (R404), and the procedure variables in their ranges (R48). -/
abbrev CommanderInv (c : CommanderRegs) : Prop :=
  c.ring.length = 8 ∧ PhaseOf c ∧ AwaitsNewest c ∧ RangeInv c

end Sys2Proof.Machine
end

