-- ==== Sys2Proof/Certificates/Slice0/Obligations.lean ====
section
/-! DEFINITION. The statements for the provers. Each docstring names the rules of spec/ it speaks of; where
a clause rests on a choice of the model, it names the entry of the assumption log. -/

open Sys2Proof Sys2Proof.Machine Host

/-! ## Wire formats and codec -/

/-- Decode and encode agree (30_encoding.md R112, R116, R118; 41_codec.md R185, R186, R195, R196): the frame
bytes of every well-formed instruction decode to that instruction, in both profiles, for every operand and
every assignment of distinct codes. -/
def Obligations.DecodeOfEncodedInstruction : Prop :=
  ∀ (cfg : Config) (i : Instr), cfg.codes.wf = true → i.wf cfg.profile = true →
    decode cfg (frameBody cfg (i.packet cfg)) = .instr i

/-- The round trip under P1, from a framer in any state: the wire bytes of an instruction hand over, beside the
frames that the start pattern's own bytes may complete for an earlier capture, exactly one frame, and it
decodes to the instruction. It follows from R152, R185 and R195; R198 is the spec's own inference from
them, and the premise is R161's: the start pattern occurs in the start pattern and body together only at
the front. -/
def Obligations.P1InstructionSurvivesTheWire : Prop :=
  ∀ (cfg : Config) (f : Framer) (i : Instr), cfg.profile = .p1 → cfg.codes.wf = true → i.wf .p1 = true →
    (∀ a z : List Byte,
      cfg.syncP1.toList ++ frameBody cfg (i.packet cfg) = a ++ cfg.syncP1.toList ++ z → a = []) →
    (feed cfg f (encode cfg i)).2 =
        (feed cfg f cfg.syncP1.toList).2 ++ [frameBody cfg (i.packet cfg)] ∧
      decode cfg (frameBody cfg (i.packet cfg)) = .instr i

/-- The round trip under P2 when every byte of SYNC_P2 has a nonzero high nibble, from a framer in any state.
It follows from R152, R186 and R196; R198 and R162 are the spec's own inferences from them. CAP_MAX_P2 must
hold the frame and its end pattern: R10 allows smaller values, under which R158 drops the frame. -/
def Obligations.P2InstructionSurvivesTheWire : Prop :=
  ∀ (cfg : Config) (f : Framer) (i : Instr), cfg.profile = .p2 → cfg.codes.wf = true → i.wf .p2 = true →
    (∀ b ∈ cfg.syncP2.toList, 0x0F < b.toNat) → cfg.syncP2 ≠ cfg.syncP2.reverse →
    16 + 2 * i.body.data.length + 4 ≤ cfg.capMaxP2 →
    (feed cfg f (encode cfg i)).2 =
        (feed cfg f cfg.syncP2.toList).2 ++ [frameBody cfg (i.packet cfg)] ∧
      decode cfg (frameBody cfg (i.packet cfg)) = .instr i

/-- R113: an encoder writes flags bits 6..0 as 0, and a P1 decoder ignores them. -/
def Obligations.ReservedFlagBitsAreZeroAndIgnored : Prop :=
  (∀ p : Packet, byteAt (bodyP1 p) 5 = if p.ack then 0x80 else 0x00) ∧
    ∀ (c : List Byte) (x y : Byte), x.getLsbD 7 = y.getLsbD 7 →
      decodeFrame .p1 (c.set 5 x) = decodeFrame .p1 (c.set 5 y)

/-- The length of the P1 and of the P2 frame of a packet. It follows from R112, R114 and R115; R137 is the
spec's own inference from them. -/
def Obligations.FrameLengths : Prop :=
  ∀ (cfg : Config) (p : Packet),
    (encodePacket cfg p).length =
      match cfg.profile with
      | .p1 => 4 + 9 + p.data.length + if cfg.p1Trailer then 4 else 0
      | .p2 => 4 + 16 + 2 * p.data.length + 4

/-- R186: the checks of the P2 decoder are made in the order shown and the first that fails names the event; a
frame that passes them gives the packet whose fields stand at the places of R116 and R118, so that header
byte 7, the encoder's `data_len`, is not read. Logical byte `k` is the low nibbles of wire bytes `2k` and
`2k+1`. -/
def Obligations.P2DecoderChecksAndReadsTheFields : Prop :=
  ∀ (c : List Byte) (l : Nat → Byte),
    (∀ k, l k = ((c.getD (2 * k) 0).extractLsb' 0 4 ++ (c.getD (2 * k + 1) 0).extractLsb' 0 4 : Byte)) →
    (decodeFrame .p2 c = .dropped .shortFrame ↔ c.length < 16) ∧
    (decodeFrame .p2 c = .dropped .oddLength ↔ 16 ≤ c.length ∧ c.length % 2 = 1) ∧
    (decodeFrame .p2 c = .dropped .badNibble ↔
      16 ≤ c.length ∧ c.length % 2 = 0 ∧ ∃ b ∈ c, 0x0F < b.toNat) ∧
    (decodeFrame .p2 c = .dropped .oversized ↔
      16 ≤ c.length ∧ c.length % 2 = 0 ∧ (∀ b ∈ c, b.toNat ≤ 0x0F) ∧ 255 < c.length / 2 - 8) ∧
    decodeFrame .p2 c ≠ .dropped .lengthMismatch ∧
    (16 ≤ c.length → c.length % 2 = 0 → (∀ b ∈ c, b.toNat ≤ 0x0F) → c.length / 2 - 8 ≤ 255 →
      decodeFrame .p2 c = .packet
        { pid := l 0 ++ l 1, origin := l 2, dest := l 3, firstHop := l 4, ack := false,
          cmd := l 5 ++ l 6, data := (List.range (c.length / 2 - 8)).map fun k => l (8 + k) })

/-- R185: a P1 frame is dropped as short, or as of the wrong length, or gives the packet whose fields stand
at the places of R112. -/
def Obligations.P1DecoderReadsTheFields : Prop :=
  ∀ c : List Byte,
    (c.length < 9 → decodeFrame .p1 c = .dropped .shortFrame) ∧
    (9 ≤ c.length → c.length ≠ 9 + (c.getD 8 0).toNat → decodeFrame .p1 c = .dropped .lengthMismatch) ∧
    (9 ≤ c.length → c.length = 9 + (c.getD 8 0).toNat →
      decodeFrame .p1 c = .packet
        { pid := c.getD 0 0 ++ c.getD 1 0, origin := c.getD 2 0, dest := c.getD 3 0,
          firstHop := c.getD 4 0, ack := (c.getD 5 0).getLsbD 7, cmd := c.getD 6 0 ++ c.getD 7 0,
          data := c.drop 9 })

/-- Words written out from R112 and R116 decode to the instructions they stand for (the frames of K1, K2, K5
and D20 in 95_test_vectors.md, and a TOUCH_READ). A sanity check of the decoder. -/
def Obligations.WrittenFramesDecode : Prop :=
  decode Config.reference [0x00, 0x01, 0xFD, 0xFE, 0xFD, 0x80, 0x00, 0x01, 0x01, 0x00] =
      .instr (.assignAddress ⟨1, 253, 254, 253, true, [0]⟩) ∧
    decode Config.reference [0x12, 0x34, 0x05, 0xFF, 0x05, 0x7F, 0x00, 0x18, 0x00] =
      .instr (.showCmd ⟨0x1234, 5, 255, 5, false, []⟩) ∧
    decode { Config.reference with profile := .p2 }
        [0x00, 0x01, 0x00, 0x00, 0x0F, 0x0D, 0x0F, 0x0F, 0x0F, 0x0D, 0x00, 0x00, 0x01, 0x08, 0x00, 0x09,
          0x00, 0x01] =
      .instr (.showCmd ⟨0x0100, 253, 255, 253, false, [1]⟩) ∧
    decode Config.reference
        [0x00, 0x24, 0xFD, 0x00, 0xFD, 0x00, 0x00, 0x10, 0x06, 0x00, 0x00, 0x10, 0x00, 0x00, 0x10] =
      .instr (.setBackgroundColors ⟨0x24, 253, 0, 253, false, [0, 0, 16, 0, 0, 16]⟩) ∧
    decode Config.reference [0x00, 0x2D, 0xFD, 0x00, 0xFD, 0x80, 0x00, 0x19, 0x00] =
      .instr (.touchRead ⟨0x2D, 253, 0, 253, true, []⟩)

/-! ## Byte Framer -/

/-- R154: whatever state a framer is in, the four bytes of the start pattern leave it in CAPTURE with an
empty capture; the byte that completes the match is not captured. In CAPTURE that byte raises
FRAME_RESTARTED (R152's event), in HUNT it raises nothing, and it completes no frame. -/
def Obligations.StartPatternAlwaysWins : Prop :=
  (∀ (cfg : Config) (f : Framer),
    (feed cfg f cfg.startPattern.toList).1 =
      { win := cfg.startPattern, winCount := 4, fstate := .capture, cap := [] }) ∧
  ∀ (cfg : Config) (f : Framer) (b : Byte), (f.slide b).atStart cfg = true →
    (f.fstate = .capture → framerStep cfg f b =
      ⟨{ f.slide b with fstate := .capture, cap := [] }, some .frameRestarted, none⟩) ∧
    (f.fstate = .hunt → framerStep cfg f b =
      ⟨{ f.slide b with fstate := .capture, cap := [] }, none, none⟩)

/-- After any noise, the bytes that follow a start pattern give the same frames as they give after the start
pattern alone from reset. It follows from R152 and R154; R161 is the spec's own inference from them, with
a premise that this form does not need. -/
def Obligations.NoiseBeforeStartIsForgotten : Prop :=
  ∀ (cfg : Config) (f : Framer) (noise body : List Byte),
    (feed cfg f (noise ++ cfg.startPattern.toList ++ body)).2 =
        (feed cfg f (noise ++ cfg.startPattern.toList)).2 ++
          (feed cfg (feed cfg Framer.reset cfg.startPattern.toList).1 body).2 ∧
      (feed cfg f (noise ++ cfg.startPattern.toList ++ body)).1 =
        (feed cfg Framer.reset (cfg.startPattern.toList ++ body)).1

/-- R156: under P1 a capture is complete exactly when it has at least 9 bytes and as many as its ninth byte
says; the whole capture is then the frame and the framer hunts again. -/
def Obligations.P1FrameCompletesByLength : Prop :=
  ∀ (cfg : Config) (f : Framer) (b : Byte), cfg.profile = .p1 → f.fstate = .capture →
    f.cap.length < 264 → (f.slide b).atStart cfg = false →
    (9 ≤ (f.cap ++ [b]).length ∧ (f.cap ++ [b]).length = 9 + ((f.cap ++ [b]).getD 8 0).toNat →
      framerStep cfg f b =
        ⟨{ f.slide b with fstate := .hunt, cap := [] }, none, some (f.cap ++ [b])⟩) ∧
    (¬(9 ≤ (f.cap ++ [b]).length ∧ (f.cap ++ [b]).length = 9 + ((f.cap ++ [b]).getD 8 0).toNat) →
      framerStep cfg f b = ⟨{ f.slide b with cap := f.cap ++ [b] }, none, none⟩)

/-- R157: under P2 a capture is complete exactly when the window equals the end pattern and at least 4 bytes
have been captured; the last 4 captured bytes are trimmed. -/
def Obligations.P2FrameCompletesAtTheEndPattern : Prop :=
  ∀ (cfg : Config) (f : Framer) (b : Byte), cfg.profile = .p2 → f.fstate = .capture →
    f.cap.length ≠ cfg.capMaxP2 → (f.slide b).atStart cfg = false →
    ((f.slide b).win = cfg.syncP2.reverse ∧ 4 ≤ (f.cap ++ [b]).length →
      framerStep cfg f b =
        ⟨{ f.slide b with fstate := .hunt, cap := [] }, none,
          some ((f.cap ++ [b]).take ((f.cap ++ [b]).length - 4))⟩) ∧
    (¬((f.slide b).win = cfg.syncP2.reverse ∧ 4 ≤ (f.cap ++ [b]).length) →
      framerStep cfg f b = ⟨{ f.slide b with cap := f.cap ++ [b] }, none, none⟩)

/-- R158 and R159: in HUNT a byte only slides the window; a byte that meets a full capture drops it, sends
the framer to HUNT and is not captured. -/
def Obligations.FramerHuntsAndOverflows : Prop :=
  ∀ (cfg : Config) (f : Framer) (b : Byte), (f.slide b).atStart cfg = false →
    (f.fstate = .hunt → framerStep cfg f b = ⟨f.slide b, none, none⟩) ∧
    (f.fstate = .capture → f.cap.length = capMax cfg →
      framerStep cfg f b =
        ⟨{ f.slide b with fstate := .hunt, cap := [] }, some .captureOverflow, none⟩)

/-- The framer's invariant (R40, R152, R156): every framer step keeps the counter, the capture's bound and,
under P1, the fact that no capture in progress has reached its length, so that a P1 capture never
overflows. That last clause is the inference R156 marks as its own. -/
def Obligations.FramerStepKeepsInvariant : Prop :=
  ∀ (cfg : Config) (f : Framer) (b : Byte), FramerInv cfg f →
    FramerInv cfg (framerStep cfg f b).framer ∧
      (cfg.profile = .p1 → (framerStep cfg f b).event ≠ some .captureOverflow)

/-! ## Primitives -/

/-- R88: a frame is appended whole where it fits, and otherwise nothing is and TX_OVERFLOW is raised; in
either case nothing else changes but the optional counters. -/
def Obligations.SendEnqueuesWholeFrameOrNothing : Prop :=
  ∀ (p : Port) (pkt : Packet) (s : State),
    (Room s p [pkt] → send p pkt s = s.setTxq p (s.txq p ++ encodePacket s.cfg pkt)) ∧
    (¬Room s p [pkt] → ∃ cs,
      send p pkt s = { s with raised := s.raised ++ [.txOverflow p], counters := cs })

/-- R197: under P1 the counter is taken and advances modulo 65536; under P2 the id is the oracle's next
answer, whatever it is, and the counter stays. -/
def Obligations.FreshPacketIds : Prop :=
  ∀ s : State,
    (s.cfg.profile = .p1 → freshPid s =
      (s.pidCounter, { s with pidCounter := BitVec.ofNat 16 ((s.pidCounter.toNat + 1) % 65536) })) ∧
    (s.cfg.profile = .p2 → freshPid s =
      (Config.packetIdDraw s.cfg.drawSource s.drawCount, { s with drawCount := s.drawCount + 1 }))

/-- R236: an executed command is acknowledged exactly when its destination is not 255 and, under P1 its
flag, under P2 membership in ACK_COMMANDS_P2, asks for it; the ACK carries the command's pid. -/
def Obligations.AckRule : Prop :=
  ∀ (n : CmdName) (p : Body) (s : State),
    (p.dest ≠ addrBroadcast ∧
        ((s.cfg.profile = .p1 ∧ p.ack = true) ∨ (s.cfg.profile = .p2 ∧ n ∈ s.cfg.ackCommandsP2)) →
      ackIfRequested n p s =
        send .up
          { pid := (freshPid s).1, origin := s.node.localAddress, dest := p.origin,
            firstHop := s.node.localAddress, ack := false, cmd := s.cfg.codes.code .ack,
            data := [hi8 p.pid, lo8 p.pid] } (freshPid s).2) ∧
    (¬(p.dest ≠ addrBroadcast ∧
        ((s.cfg.profile = .p1 ∧ p.ack = true) ∨ (s.cfg.profile = .p2 ∧ n ∈ s.cfg.ackCommandsP2))) →
      ackIfRequested n p s = s)

/-! ## The packet at a node and at the commander -/

/-- R261, R262, R263 and R232 at a node, R339 at the commander: for every instruction, a filtered
destination has no effect, a short payload only raises SHORT_PAYLOAD, and a packet whose class the agent
does not take from that port, or at all, has no effect. -/
def Obligations.IgnoredPacketsChangeNothing : Prop :=
  ∀ (i : Instr) (s : State),
    (s.cfg.role = .node →
      (i.body.dest ≠ s.node.localAddress → i.body.dest ≠ addrBroadcast → exec i s = .next s) ∧
      ((i.body.dest = s.node.localAddress ∨ i.body.dest = addrBroadcast) →
        i.body.data.length < need s.cfg.touchStateLen i.name →
        exec i s = .next (raise (.shortPayload i.name) s)) ∧
      (Passes i.name i.body s →
        (i.name ∈ [.ack, .panic, .readyStatus, .touchState] → exec i s = .next s) ∧
        (i.name ∈ [.announce, .probeResponse, .terminatorAnnounce] → s.senderPort = .up →
          exec i s = .next s) ∧
        (i.name ∉ [.ack, .panic, .readyStatus, .touchState, .announce, .probeResponse,
            .terminatorAnnounce] → s.senderPort = .down → exec i s = .next s))) ∧
    (s.cfg.role = .commander →
      (i.body.dest ≠ addrCommander → i.body.dest ≠ addrBroadcast → exec i s = .next s) ∧
      ((i.body.dest = addrCommander ∨ i.body.dest = addrBroadcast) →
        i.body.data.length < need s.cfg.touchStateLen i.name →
        exec i s = .next (raise (.shortPayload i.name) s)) ∧
      (AtCommander i.name i.body s →
        i.name ∉ [.ack, .panic, .readyStatus, .touchState, .announce, .probeResponse,
          .terminatorAnnounce] → exec i s = .next s))

/-! ## Chain commands -/

/-- R220: RESET writes exactly these registers, then the ACK rule runs. -/
def Obligations.ResetCommandResult : Prop :=
  ∀ (p : Body) (s : State), FromUp .reset p s →
    exec (.reset p) s = .next (ackIfRequested .reset p
      { s with node := { s.node with
        localAddress := 254, chainLength := 0, propagationMode := false, busMode := false,
        chainState := .unassigned, probeArmed := false, lastAnnounce := s.now } })

/-- R222: an address up to 252 is taken, then the ACK rule runs with it; a higher one is refused with
BAD_OPERAND and no ACK. -/
def Obligations.AssignAddressResult : Prop :=
  ∀ (p : Body) (s : State), FromUp .assignAddress p s →
    ((p.data.getD 0 0).toNat ≤ 252 →
      exec (.assignAddress p) s = .next (ackIfRequested .assignAddress p
        { s with node := { s.node with
          localAddress := p.data.getD 0 0, chainState := .assigned, probeArmed := false } })) ∧
    (252 < (p.data.getD 0 0).toNat →
      exec (.assignAddress p) s = .next (raise (.badOperand .assignAddress) s))

/-- R223 and R224: ENABLE_PROPAGATION sets `propagation_mode`, SET_CHAIN_LENGTH takes any u8, and each writes
nothing else. -/
def Obligations.EnableAndLengthResults : Prop :=
  ∀ (p : Body) (s : State),
    (FromUp .enablePropagation p s →
      exec (.enablePropagation p) s = .next (ackIfRequested .enablePropagation p
        { s with node := { s.node with propagationMode := true } })) ∧
    (FromUp .setChainLength p s →
      exec (.setChainLength p) s = .next (ackIfRequested .setChainLength p
        { s with node := { s.node with chainLength := p.data.getD 0 0 } }))

/-- R225 and R226: bus mode is entered only with propagation on, the command counting as executed either
way, and left always; `propagation_mode` stays. -/
def Obligations.BusModeResults : Prop :=
  ∀ (p : Body) (s : State),
    (FromUp .startBusMode p s → s.node.propagationMode = true →
      exec (.startBusMode p) s = .next (ackIfRequested .startBusMode p
        { s with node := { s.node with busMode := true } })) ∧
    (FromUp .startBusMode p s → s.node.propagationMode = false →
      exec (.startBusMode p) s = .next (ackIfRequested .startBusMode p s)) ∧
    (FromUp .endBusMode p s →
      exec (.endBusMode p) s = .next (ackIfRequested .endBusMode p
        { s with node := { s.node with busMode := false } }))

/-- R227: a PROBE to an assigned node's own address draws a PROBE_RESPONSE with the probe's pid; a broadcast
PROBE is adopted under NODE_TO_NODE by a node without an address, which answers and probes on, or refused
with BAD_OPERAND when its origin is 252 or 255; any other PROBE is ignored by the rule. That an ignored PROBE
still meets the ACK rule, so that an ACK may be sent, is the model's reading of R260
(notes/assumptions/13.md). -/
def Obligations.ProbeResult : Prop :=
  ∀ (p : Body) (s : State), FromUp .probe p s → AddressInv s.node →
    (p.dest = s.node.localAddress → s.node.localAddress ≠ 254 →
      exec (.probe p) s = .next (ackIfRequested .probe p
        (send .up
          { pid := (freshPid s).1, origin := s.node.localAddress, dest := p.origin,
            firstHop := s.node.localAddress, ack := false, cmd := s.cfg.codes.code .probeResponse,
            data := [hi8 p.pid, lo8 p.pid] } (freshPid s).2))) ∧
    (p.dest = 255 → s.cfg.discoveryMode = .nodeToNode →
      (s.node.chainState = .unassigned ∨ s.node.chainState = .discovering) →
      (∀ a : Byte,
        ((p.origin = 254 ∨ p.origin = 253) ∧ a = 0) ∨ (p.origin.toNat ≤ 251 ∧ a = p.origin + 1) →
        ∃ s1 s2,
          s1 = { s with node := { s.node with
            localAddress := a, chainState := .assigned, probeArmed := true, probeStart := s.now } } ∧
          s2 = send .up
            { pid := (freshPid s1).1, origin := a, dest := p.origin, firstHop := a, ack := false,
              cmd := s.cfg.codes.code .probeResponse, data := [hi8 p.pid, lo8 p.pid] } (freshPid s1).2 ∧
          exec (.probe p) s = .next (send .down
            { pid := (freshPid s2).1, origin := a, dest := 255, firstHop := a, ack := false,
              cmd := s.cfg.codes.code .probe, data := [] } (freshPid s2).2)) ∧
      (p.origin = 252 ∨ p.origin = 255 → exec (.probe p) s = .next (raise (.badOperand .probe) s))) ∧
    (¬(p.dest = s.node.localAddress ∧ s.node.localAddress ≠ 254) →
      ¬(p.dest = 255 ∧ s.cfg.discoveryMode = .nodeToNode ∧
        (s.node.chainState = .unassigned ∨ s.node.chainState = .discovering)) →
      exec (.probe p) s = .next (ackIfRequested .probe p s))

/-- R228 and R343: an armed node answers an ANNOUNCE from DOWN with another PROBE, its timeout unchanged; the
commander answers one with the head probe while its chain length is 0; both only under NODE_TO_NODE. -/
def Obligations.AnnounceResult : Prop :=
  ∀ (p : Body) (s : State),
    (FromDown .announce p s →
      (s.cfg.discoveryMode = .nodeToNode ∧ s.node.chainState = .assigned ∧ s.node.probeArmed = true →
        exec (.announce p) s = .next (send .down
          { pid := (freshPid s).1, origin := s.node.localAddress, dest := 255,
            firstHop := s.node.localAddress, ack := false, cmd := s.cfg.codes.code .probe, data := [] }
          (freshPid s).2)) ∧
      (¬(s.cfg.discoveryMode = .nodeToNode ∧ s.node.chainState = .assigned ∧ s.node.probeArmed = true) →
        exec (.announce p) s = .next s)) ∧
    (AtCommander .announce p s →
      (s.cfg.discoveryMode = .nodeToNode ∧ s.cmdr.chainLength = 0 →
        exec (.announce p) s = .next (send .down
          { pid := (freshPid s).1, origin := 253, dest := 255, firstHop := 253, ack := false,
            cmd := s.cfg.codes.code .probe, data := [] } (freshPid s).2)) ∧
      (¬(s.cfg.discoveryMode = .nodeToNode ∧ s.cmdr.chainLength = 0) →
        exec (.announce p) s = .next s))

/-- R229 and R339: a PROBE_RESPONSE from DOWN that is addressed to this node makes an armed node a relay and is
otherwise ignored, as a broadcast one is; at the commander it acknowledges the valid ring entries of the pid
it carries (R322). -/
def Obligations.ProbeResponseResult : Prop :=
  ∀ (p : Body) (s : State),
    (FromDown .probeResponse p s →
      (p.dest = s.node.localAddress ∧ s.node.chainState = .assigned ∧ s.node.probeArmed = true →
        exec (.probeResponse p) s =
          .next { s with node := { s.node with probeArmed := false, chainState := .relay } }) ∧
      (¬(p.dest = s.node.localAddress ∧ s.node.chainState = .assigned ∧ s.node.probeArmed = true) →
        exec (.probeResponse p) s = .next s)) ∧
    (AtCommander .probeResponse p s →
      exec (.probeResponse p) s = .next { s with cmdr := { s.cmdr with
        ring := s.cmdr.ring.map fun e =>
          if e.valid = true ∧ e.pid = (p.data.getD 0 0 ++ p.data.getD 1 0 : U16) then { e with acked := true }
          else e } })

/-- R231 and R340: a relay takes the announced length, and if it did not propagate it enables propagation
and announces upward itself; any other node ignores it; the commander takes the length. -/
def Obligations.TerminatorAnnounceResult : Prop :=
  ∀ (p : Body) (s : State),
    (FromDown .terminatorAnnounce p s →
      (s.node.chainState = .relay → s.node.propagationMode = false →
        ∃ s1,
          s1 = { s with node := { s.node with
            propagationMode := true, chainLength := p.data.getD 0 0 } } ∧
          exec (.terminatorAnnounce p) s = .next (send .up
            { pid := (freshPid s1).1, origin := s.node.localAddress, dest := 255,
              firstHop := s.node.localAddress, ack := false,
              cmd := s.cfg.codes.code .terminatorAnnounce, data := [p.data.getD 0 0] }
            (freshPid s1).2)) ∧
      (s.node.chainState = .relay → s.node.propagationMode = true →
        exec (.terminatorAnnounce p) s =
          .next { s with node := { s.node with chainLength := p.data.getD 0 0 } }) ∧
      (s.node.chainState ≠ .relay → exec (.terminatorAnnounce p) s = .next s)) ∧
    (AtCommander .terminatorAnnounce p s →
      exec (.terminatorAnnounce p) s =
        .next { s with cmdr := { s.cmdr with chainLength := p.data.getD 0 0 } })

/-! ## Responses at the commander -/

/-- R339 with R322, R341 and R342: what the commander does with ACK, PANIC, READY_STATUS and TOUCH_STATE, and
that nothing else changes. The host hears the TOUCH_STATE_LEN bytes of a TOUCH_STATE's layout; that bytes
beyond them are ignored is R132's, read together with R342 (notes/assumptions/9.md). -/
def Obligations.ResponsesAtTheCommander : Prop :=
  ∀ (p : Body) (s : State),
    (AtCommander .ack p s →
      exec (.ack p) s = .next { s with cmdr := { s.cmdr with
        ring := s.cmdr.ring.map fun e =>
          if e.valid = true ∧ e.pid = (p.data.getD 0 0 ++ p.data.getD 1 0 : U16) then { e with acked := true }
          else e } }) ∧
    (AtCommander .panic p s →
      exec (.panic p) s =
        .next { s with cmdr := { s.cmdr with panicValid := true, panicHop := p.firstHop } }) ∧
    (AtCommander .readyStatus p s →
      exec (.readyStatus p) s = .next { s with out := s.out ++ [.hostReady p.origin] }) ∧
    (AtCommander .touchState p s →
      exec (.touchState p) s = .next { s with
        out := s.out ++ [.hostTouch p.origin (p.data.take s.cfg.touchStateLen)] })

/-! ## Render, touch and storage commands -/

/-- R270, R275, R276, R277, R278 and R280: each single-field render command emits its one request, with the
payload's integer, and writes no register. -/
def Obligations.SingleFieldRenderCommands : Prop :=
  ∀ (p : Body) (s : State),
    (FromUp .setBrightness p s →
      exec (.setBrightness p) s = .next (ackIfRequested .setBrightness p
        { s with out := s.out ++ [.renderSet (.brightness (p.data.getD 0 0))] })) ∧
    (FromUp .setTransitionType p s →
      exec (.setTransitionType p) s = .next (ackIfRequested .setTransitionType p
        { s with out := s.out ++ [.renderSet (.transitionType (p.data.getD 0 0))] })) ∧
    (FromUp .setTransitionDuration p s →
      exec (.setTransitionDuration p) s = .next (ackIfRequested .setTransitionDuration p
        { s with out := s.out ++
          [.renderSet (.transitionDuration (p.data.getD 0 0 ++ p.data.getD 1 0))] })) ∧
    (FromUp .setTransitionInterpolation p s →
      exec (.setTransitionInterpolation p) s = .next (ackIfRequested .setTransitionInterpolation p
        { s with out := s.out ++ [.renderSet (.transitionInterpolation (p.data.getD 0 0))] })) ∧
    (FromUp .setFrameBlending p s →
      exec (.setFrameBlending p) s = .next (ackIfRequested .setFrameBlending p
        { s with out := s.out ++ [.renderSet (.frameBlending (p.data.getD 0 0))] })) ∧
    (FromUp .showCmd p s →
      exec (.showCmd p) s = .next (ackIfRequested .showCmd p { s with out := s.out ++ [.trigger] }))

/-- R271, R272, R273, R274 and R279 with R263: each multi-field command emits its requests in order between
`freeze <- 1` and `freeze <- 0` within the one step. -/
def Obligations.MultiFieldRenderCommands : Prop :=
  ∀ (p : Body) (s : State),
    (FromUp .setDisplayColors p s →
      exec (.setDisplayColors p) s = .next (ackIfRequested .setDisplayColors p
        { s with
          node := { s.node with freeze := false }
          out := s.out ++ [.freeze true,
            .renderSet (.displayColorA ⟨p.data.getD 0 0, p.data.getD 1 0, p.data.getD 2 0⟩),
            .renderSet (.displayColorB ⟨p.data.getD 3 0, p.data.getD 4 0, p.data.getD 5 0⟩),
            .freeze false] })) ∧
    (FromUp .setBackgroundColors p s →
      exec (.setBackgroundColors p) s = .next (ackIfRequested .setBackgroundColors p
        { s with
          node := { s.node with freeze := false }
          out := s.out ++ [.freeze true,
            .renderSet (.backgroundColorA ⟨p.data.getD 0 0, p.data.getD 1 0, p.data.getD 2 0⟩),
            .renderSet (.backgroundColorB ⟨p.data.getD 3 0, p.data.getD 4 0, p.data.getD 5 0⟩),
            .freeze false] })) ∧
    (FromUp .setBacklight p s →
      exec (.setBacklight p) s = .next (ackIfRequested .setBacklight p
        { s with
          node := { s.node with freeze := false }
          out := s.out ++ [.freeze true,
            .renderSet (.backlightColor ⟨p.data.getD 0 0, p.data.getD 1 0, p.data.getD 2 0⟩),
            .renderSet (.backlightBrightness (p.data.getD 3 0)), .freeze false] })) ∧
    (FromUp .setGradient p s →
      exec (.setGradient p) s = .next (ackIfRequested .setGradient p
        { s with
          node := { s.node with freeze := false }
          out := s.out ++ [.freeze true, .renderSet (.displayGradient (p.data.getD 0 0)),
            .renderSet (.backgroundGradient (p.data.getD 1 0)), .freeze false] })) ∧
    (FromUp .setCharacter p s →
      exec (.setCharacter p) s = .next (ackIfRequested .setCharacter p
        { s with
          node := { s.node with freeze := false }
          out := s.out ++ [.freeze true, .renderSet (.glyph (p.data.getD 0 0)), .freeze false] }))

/-- R281 with R287, R282 and R283: TOUCH_READ answers its origin with the touch reading unchanged,
CALIBRATE_TOUCH hands over its whole payload, SAVE_CONFIG asks for the save; no register is written. -/
def Obligations.TouchAndStorageCommands : Prop :=
  ∀ (p : Body) (s : State),
    (FromUp .touchRead p s →
      exec (.touchRead p) s = .next (ackIfRequested .touchRead p
        (send .up
          { pid := (freshPid s).1, origin := s.node.localAddress, dest := p.origin,
            firstHop := s.node.localAddress, ack := false, cmd := s.cfg.codes.code .touchState,
            data := s.touchLevel } (freshPid s).2))) ∧
    (FromUp .calibrateTouch p s →
      exec (.calibrateTouch p) s = .next (ackIfRequested .calibrateTouch p
        { s with out := s.out ++ [.touchCalibrate p.data] })) ∧
    (FromUp .saveConfig p s →
      exec (.saveConfig p) s = .next (ackIfRequested .saveConfig p
        { s with out := s.out ++ [.storageSave] }))

/-- D29 of 95_test_vectors.md in general (R281, R236, R88): a TOUCH_READ that asks for an ACK under P1, with
room in the FIFO, appends the TOUCH_STATE frame and then the ACK frame, with consecutive packet ids. -/
def Obligations.TouchReadAnswersThenAcks : Prop :=
  ∀ (p : Body) (s : State) (st ak : Packet), FromUp .touchRead p s → s.cfg.profile = .p1 →
    p.ack = true → p.dest ≠ addrBroadcast →
    st = { pid := s.pidCounter, origin := s.node.localAddress, dest := p.origin,
           firstHop := s.node.localAddress, ack := false, cmd := s.cfg.codes.code .touchState,
           data := s.touchLevel } →
    ak = { pid := s.pidCounter + 1, origin := s.node.localAddress, dest := p.origin,
           firstHop := s.node.localAddress, ack := false, cmd := s.cfg.codes.code .ack,
           data := [hi8 p.pid, lo8 p.pid] } →
    Room s .up [st, ak] →
    exec (.touchRead p) s = .next { s with
      txUp := s.txUp ++ encodePacket s.cfg st ++ encodePacket s.cfg ak
      pidCounter := s.pidCounter + 2 }

/-! ## Steps and events -/

/-- A step runs the decoded instruction (40_framer.md R150, R151): where the next event completes a frame
that decodes to `i`, the step is `exec i` at a state that differs from the state before only in what R150
says: the step's events are new and the input taken (`s1`); a propagating node outside bus mode has
forwarded the byte to the other port, or dropped it with TX_OVERFLOW where there is no room (`s2`, R89); the
framer has taken the byte; and the packet's port, and a packet from UP's time, are noted. -/
def Obligations.StepRunsTheDecodedInstruction : Prop :=
  ∀ (s s1 s2 : State) (p : Port) (b : Byte) (i : Instr),
    nextByte s = some (p, b) → nextInstr s = some (p, i) →
    s1 = { s with out := [], raised := [], inputs := s.inputs.tail } →
    s2 = (if s.cfg.role = .node ∧ s.node.propagationMode = true ∧ s.node.busMode = false then
        if (s.txq p.other).length < s.cfg.txFifoDepth then s1.setTxq p.other (s.txq p.other ++ [b])
        else raise (.txOverflow p.other) s1
      else s1) →
    step s = exec i { s2.setFramer p (framerStep s.cfg (s.framer p) b).framer with
      senderPort := p
      node := { s.node with lastUpRx := if p = .up then s.now else s.node.lastUpRx } }

/-- Every instruction of the opcode table completes in a next state, at every state and for all operands: no
instruction faults or is refused (60_exceptions.md R366: no event of the block transfers control; the
spec's rules give every packet an effect or none). -/
def Obligations.EveryInstructionCompletes : Prop :=
  ∀ (i : Instr) (s : State), ∃ t, exec i s = .next t

/-- Where the environment keeps the duties of 70_reset_and_hazards.md R397 and delivers only the events that
60_exceptions.md R364 gives the agent's role, every step answers a next state. -/
def Obligations.StepsGoOnUnderTheDuties : Prop :=
  ∀ s : State, EnvDuty s → ∃ t, step s = .next t

/-- R90 and R91: under DROP a byte that arrives while the same port's FIFO is not empty is discarded with
RX_DROPPED, and in bus mode a node discards every byte from DOWN; neither is forwarded or framed. -/
def Obligations.DiscardedBytesChangeNothing : Prop :=
  ∀ (s : State) (p : Port) (b : Byte), nextByte s = some (p, b) →
    (s.cfg.rxDuringTx = .drop → s.txq p ≠ [] → (s.cfg.role = .commander → p = .down) →
      step s = .next (raise (.rxDropped p) { s with out := [], raised := [], inputs := s.inputs.tail })) ∧
    (s.cfg.role = .node → s.node.busMode = true → p = .down → rxBlocked .down s = false →
      step s = .next { s with out := [], raised := [], inputs := s.inputs.tail })

/-- R150 and R151 for every byte that is not discarded and completes no instruction, at either agent (where it
completes one, `StepRunsTheDecodedInstruction`): a propagating node outside bus mode forwards it first,
whatever it is (R89), its port's framer takes it, and then nothing else changes but this: a byte that
completes no frame raises the framer's event if there is one; one that completes a frame the codec drops
raises that event alone (R187), which is never LENGTH_MISMATCH, since a framer hands no such frame over (R156;
K2b of 95_test_vectors.md); one that completes a frame of an unknown code only has a packet from UP's time
noted (R133, R370). -/
def Obligations.ReceivedByteIsForwardedAndFramed : Prop :=
  ∀ (s s1 s2 s3 : State) (p : Port) (b : Byte), nextByte s = some (p, b) → framesByte s p = true →
    s1 = { s with out := [], raised := [], inputs := s.inputs.tail } →
    s2 = (if s.cfg.role = .node ∧ s.node.propagationMode = true ∧ s.node.busMode = false then
        if (s.txq p.other).length < s.cfg.txFifoDepth then s1.setTxq p.other (s.txq p.other ++ [b])
        else raise (.txOverflow p.other) s1
      else s1) →
    s3 = s2.setFramer p (framerStep s.cfg (s.framer p) b).framer →
    ((framerStep s.cfg (s.framer p) b).frame = none →
      ((framerStep s.cfg (s.framer p) b).event = none → step s = .next s3) ∧
      ((framerStep s.cfg (s.framer p) b).event = some .frameRestarted →
        step s = .next (raise (.frameRestarted p) s3)) ∧
      ((framerStep s.cfg (s.framer p) b).event = some .captureOverflow →
        step s = .next (raise (.captureOverflow p) s3))) ∧
    ∀ c, (framerStep s.cfg (s.framer p) b).frame = some c →
      (decode s.cfg c = .dropped .shortFrame → step s = .next (raise (.shortFrame p) s3)) ∧
      decode s.cfg c ≠ .dropped .lengthMismatch ∧
      (decode s.cfg c = .dropped .oddLength → step s = .next (raise (.oddLength p) s3)) ∧
      (decode s.cfg c = .dropped .badNibble → step s = .next (raise (.badNibble p) s3)) ∧
      (decode s.cfg c = .dropped .oversized → step s = .next (raise (.oversized p) s3)) ∧
      ∀ pkt, decode s.cfg c = .unknown pkt → step s = .next { s3 with
        node := { s.node with lastUpRx := if p = .up then s.now else s.node.lastUpRx } }

/-- R233, R234 and R370, in the order of R365: what a node's tick does. -/
def Obligations.NodeTickRules : Prop :=
  (∀ (s : State) (t : U32) (rest : List Event), s.inputs = .tick t :: rest → s.cfg.role = .node →
    (s.timeKnown = true → (t - s.now).toNat < 2 ^ 31) →
    step s = .next (errorIndication (probeTimeoutRule (announceRule
      { s with out := [], raised := [], inputs := rest, now := t, timeKnown := true })))) ∧
  (∀ s : State,
    ((s.node.chainState = .unassigned ∨ s.node.chainState = .discovering) →
      s.cfg.discoveryIntervalMs.toNat ≤ (s.now - s.node.lastAnnounce).toNat →
      ∃ t, t = send .up
          { pid := (freshPid s).1, origin := 254, dest := 255, firstHop := 254, ack := false,
            cmd := s.cfg.codes.code .announce, data := [] } (freshPid s).2 ∧
        announceRule s =
          { t with node := { s.node with lastAnnounce := s.now, chainState := .discovering } }) ∧
    (¬((s.node.chainState = .unassigned ∨ s.node.chainState = .discovering) ∧
        s.cfg.discoveryIntervalMs.toNat ≤ (s.now - s.node.lastAnnounce).toNat) → announceRule s = s)) ∧
  (∀ s : State,
    (s.cfg.discoveryMode = .nodeToNode ∧ s.node.chainState = .assigned ∧ s.node.probeArmed = true ∧
        s.cfg.probeTimeoutMult * s.cfg.discoveryIntervalMs.toNat ≤ (s.now - s.node.probeStart).toNat →
      ∃ s1, s1 = { s with node := { s.node with
          probeArmed := false, chainState := .terminating, propagationMode := true,
          chainLength := s.node.localAddress + 1 } } ∧
        probeTimeoutRule s = send .up
          { pid := (freshPid s1).1, origin := s.node.localAddress, dest := 255,
            firstHop := s.node.localAddress, ack := false,
            cmd := s.cfg.codes.code .terminatorAnnounce, data := [s.node.localAddress + 1] }
          (freshPid s1).2) ∧
    (¬(s.cfg.discoveryMode = .nodeToNode ∧ s.node.chainState = .assigned ∧ s.node.probeArmed = true ∧
        s.cfg.probeTimeoutMult * s.cfg.discoveryIntervalMs.toNat ≤ (s.now - s.node.probeStart).toNat) →
      probeTimeoutRule s = s)) ∧
  (∀ s : State,
    errorIndication s = { s with node := { s.node with
      errorStatus :=
        if s.cfg.upstreamGraceMs.toNat ≤ (s.now - s.node.lastUpRx).toNat then
          if s.node.localAddress = 254 then .neverAssigned else .assignedSilent
        else .none } })

/-- R235 and R290: the packets a node sends for a panic request and for a completed transition, the latter
only when completion is forwarded and the node has an address; no register but the packet id changes. -/
def Obligations.PanicAndReadyPackets : Prop :=
  ∀ (s s1 : State) (rest : List Event), s.cfg.role = .node →
    s1 = { s with out := [], raised := [], inputs := rest } →
    (∀ h, s.inputs = .panicRequest h :: rest →
      step s = .next (send .up
        { pid := (freshPid s1).1, origin := s.node.localAddress, dest := 253, firstHop := h, ack := false,
          cmd := s.cfg.codes.code .panic, data := [] } (freshPid s1).2)) ∧
    (s.inputs = .transitionComplete :: rest →
      (s.cfg.forwardCompletion = true ∧ s.node.localAddress ≠ 254 →
        step s = .next (send .up
          { pid := (freshPid s1).1, origin := s.node.localAddress, dest := 253,
            firstHop := s.node.localAddress, ack := false, cmd := s.cfg.codes.code .readyStatus,
            data := [] } (freshPid s1).2)) ∧
      (¬(s.cfg.forwardCompletion = true ∧ s.node.localAddress ≠ 254) → step s = .next s1))

/-- R55, R63 and R391: `tx_done` removes the head byte of its FIFO and has no other effect, a new touch reading
replaces the level, and without an event the agent waits. A `tx_done` on an empty FIFO and a tick that breaks
R397 (a) stop the model (notes/assumptions/7.md, notes/assumptions/8.md); how an event reaches the agent is
the model's choice (notes/assumptions/5.md, notes/assumptions/12.md). -/
def Obligations.TransmissionTouchAndIdleSteps : Prop :=
  (∀ (s : State) (p : Port) (rest : List Event), s.inputs = .txDone p :: rest →
    (s.cfg.role = .commander → p = .down) →
    (∀ b q, s.txq p = b :: q →
      step s = .next { s.setTxq p q with out := [.transmitted p b], raised := [], inputs := rest }) ∧
    (s.txq p = [] → step s = .fault (.txDoneOnEmpty p))) ∧
  (∀ (s : State) (reading : List Byte) (rest : List Event), s.inputs = .touchLevel reading :: rest →
    reading.length = s.cfg.touchStateLen →
    step s = .next { s with touchLevel := reading, out := [], raised := [], inputs := rest }) ∧
  (∀ (s : State) (t : U32) (rest : List Event), s.inputs = .tick t :: rest → s.timeKnown = true →
    2 ^ 31 ≤ (t - s.now).toNat → step s = .fault .timeDuty) ∧
  ∀ s : State, s.inputs = [] → step s = .next { s with out := [], raised := [] }

/-- R390: an external reset at time `now` gives every register its reset value, in either role, whatever the
state before. `win`, the ring's `pid` and `acked`, the procedure variables and the latch's hop, which R390
leaves unspecified, are not spoken of. At `State.reset` no time value has been delivered, and `now` is 0. -/
def Obligations.ExternalResetValues : Prop :=
  (State.reset.now = 0 ∧ State.reset.node.lastAnnounce = 0 ∧ State.reset.node.lastUpRx = 0) ∧
  ∀ (s : State) (now : U32) (rest : List Event), s.inputs = .externalReset now :: rest →
    ∃ t, step s = .next t ∧ t.cfg = s.cfg ∧ t.now = now ∧
      t.node.localAddress = 254 ∧ t.node.chainLength = 0 ∧ t.node.propagationMode = false ∧
      t.node.busMode = false ∧ t.node.chainState = .unassigned ∧ t.node.probeArmed = false ∧
      t.node.probeStart = 0 ∧ t.node.lastAnnounce = now ∧ t.node.lastUpRx = now ∧
      t.node.errorStatus = .none ∧ t.node.freeze = false ∧ t.pidCounter = 0 ∧
      (∀ p, (t.framer p).winCount = 0 ∧ (t.framer p).fstate = .hunt ∧ (t.framer p).cap = [] ∧
        t.txq p = []) ∧
      t.cmdr.chainLength = 0 ∧ t.cmdr.ring.length = 8 ∧ (∀ e ∈ t.cmdr.ring, e.valid = false) ∧
      t.cmdr.ringW = 0 ∧ t.cmdr.proc = .idle ∧ t.cmdr.panicValid = false

/-! ## Commander -/

/-- R321: after `ring_register` of a pid the entry at `ring_w` is the new one, no other valid entry has the
pid, every other entry of another pid is unchanged, and `ring_w` has advanced modulo 8. -/
def Obligations.RingRegister : Prop :=
  ∀ (s : State) (pid : U16), s.cmdr.ring.length = 8 →
    ∃ r, ringRegister pid s =
        { s with cmdr := { s.cmdr with ring := r, ringW := s.cmdr.ringW + 1 } } ∧ r.length = 8 ∧
      r[s.cmdr.ringW.val]? = some ⟨true, pid, false⟩ ∧
      ∀ j e, j ≠ s.cmdr.ringW.val → s.cmdr.ring[j]? = some e →
        r[j]? = some (if e.valid = true ∧ e.pid = pid then { e with valid := false } else e)

/-- R330 and R344: `begin()` of an idle commander, in either profile. Its chain length becomes 0 and the RESET
broadcast is sent (or dropped as R88 says). Under COMMANDER `assign_next()` follows from address 0
(`DiscoveryPhases` says what it does) and the host hears nothing yet; under NODE_TO_NODE the host hears true
at once. The first clause spells the frames out for COMMANDER, P1 and a FIFO with room: RESET, then
ASSIGN_ADDRESS(0) to 254 asking for an ACK, whose answer is awaited. -/
def Obligations.BeginSendsResetAndFirstAssign : Prop :=
  (∀ (s : State) (rest : List Event) (rs asg : Packet), s.inputs = .hostCall .begin :: rest →
    s.cfg.role = .commander → s.cfg.profile = .p1 → s.cfg.discoveryMode = .commander →
    s.cmdr.proc = .idle →
    rs = { pid := s.pidCounter, origin := 253, dest := 255, firstHop := 253, ack := false,
           cmd := s.cfg.codes.code .reset, data := [] } →
    asg = { pid := s.pidCounter + 1, origin := 253, dest := 254, firstHop := 253, ack := true,
            cmd := s.cfg.codes.code .assignAddress, data := [0] } →
    Room s .down [rs, asg] →
    ∃ t, step s = .next t ∧ t.txDown = s.txDown ++ encodePacket s.cfg rs ++ encodePacket s.cfg asg ∧
      t.pidCounter = s.pidCounter + 2 ∧ t.out = [] ∧ t.raised = [] ∧ t.node = s.node ∧
      t.cmdr.chainLength = 0 ∧ t.cmdr.i = 0 ∧ t.cmdr.proc = .discover ∧ t.cmdr.phase = .aWait ∧
      t.cmdr.waitPid = s.pidCounter + 1 ∧ t.cmdr.waitStart = s.now ∧
      t.cmdr.panicValid = s.cmdr.panicValid) ∧
  ∀ (s s1 s2 : State) (rest : List Event), s.inputs = .hostCall .begin :: rest →
    s.cfg.role = .commander → s.cmdr.proc = .idle →
    s1 = { s with
      out := [], raised := [], inputs := rest, cmdr := { s.cmdr with chainLength := 0 } } →
    s2 = send .down
      { pid := (freshPid s1).1, origin := 253, dest := 255, firstHop := 253, ack := false,
        cmd := s.cfg.codes.code .reset, data := [] } (freshPid s1).2 →
    (s.cfg.discoveryMode = .commander →
      step s = .next (assignNext { s2 with cmdr := { s2.cmdr with i := 0 } })) ∧
    (s.cfg.discoveryMode = .nodeToNode → step s = .next { s2 with out := [.hostResult .begin true] })

/-- The procedure of discovery, in either profile, whatever room the FIFO has. First what its parts do: `CPKT`
sent (R320), `request` (R321, R323), `assign_next` (R330) and `finish_discovery` (R333). Then the tick of a
commander that discovers: while the wait is pending nothing changes; in phase A_WAIT an answer draws
ENABLE_PROPAGATION, awaited where a node acknowledges it and otherwise followed by the next address at once,
and a failure ends discovery at the address that was not answered (R331); in phase E_WAIT an answer goes on to
the next address and a failure ends discovery one past the address, reporting false (R332). A failure
raises ACK_TIMEOUT (R360). Where the procedure has ended, a latched panic starts its recovery in the same
tick (R325; `RecoveryPhases`). -/
def Obligations.DiscoveryPhases : Prop :=
  (∀ (s : State) (d : Byte) (n : CmdName) (data : List Byte) (ack : Bool),
    commanderSend d n data ack s = send .down
      { pid := (freshPid s).1, origin := 253, dest := d, firstHop := 253, ack := ack,
        cmd := s.cfg.codes.code n, data := data } (freshPid s).2 ∧
    request d n data ack s = { commanderSend d n data ack s with cmdr := { s.cmdr with
      ring := (s.cmdr.ring.map fun e =>
        if e.valid = true ∧ e.pid = (freshPid s).1 then { e with valid := false } else e).set
          s.cmdr.ringW.val ⟨true, (freshPid s).1, false⟩
      ringW := s.cmdr.ringW + 1
      waitPid := (freshPid s).1
      waitStart := s.now } }) ∧
  (∀ s : State,
    (s.cmdr.i = 253 → assignNext s = finishDiscovery 253 true s) ∧
    (s.cmdr.i ≠ 253 → ∃ r,
      r = request 254 .assignAddress [BitVec.ofNat 8 s.cmdr.i] (decide (s.cfg.profile = .p1)) s ∧
      assignNext s = { r with cmdr := { r.cmdr with proc := .discover, phase := .aWait } })) ∧
  (∀ (s : State) (n : Nat) (ok : Bool), ∃ s1 r,
    s1 = { s with cmdr := { s.cmdr with chainLength := BitVec.ofNat 8 n } } ∧
    r = commanderSend 255 .setChainLength [BitVec.ofNat 8 n] false s1 ∧
    finishDiscovery n ok s = { r with
      cmdr := { s1.cmdr with proc := .idle }, out := s.out ++ [.hostResult .begin ok] }) ∧
  ∀ (s s1 f : State) (t : U32) (rest : List Event), s.inputs = .tick t :: rest →
    s.cfg.role = .commander → s.cmdr.proc = .discover →
    (s.timeKnown = true → (t - s.now).toNat < 2 ^ 31) →
    s1 = { s with now := t, timeKnown := true, out := [], raised := [], inputs := rest } →
    f = raise (.ackTimeout s.cmdr.waitPid) s1 →
    (StillWaiting s t → step s = .next s1) ∧
    (s.cmdr.phase = .aWait →
      (TimedOut s t → step s = .next (recoverIfLatched (finishDiscovery s.cmdr.i true f))) ∧
      (Answered s → (s.cfg.profile = .p1 ∨ .enablePropagation ∈ s.cfg.ackCommandsP2) → ∃ r,
        r = request (BitVec.ofNat 8 s.cmdr.i) .enablePropagation [] (decide (s.cfg.profile = .p1)) s1 ∧
        step s = .next { r with cmdr := { r.cmdr with proc := .discover, phase := .eWait } }) ∧
      (Answered s → ¬(s.cfg.profile = .p1 ∨ .enablePropagation ∈ s.cfg.ackCommandsP2) → ∃ r,
        r = commanderSend (BitVec.ofNat 8 s.cmdr.i) .enablePropagation [] false s1 ∧
        step s = .next (recoverIfLatched (assignNext
          { r with cmdr := { r.cmdr with i := s.cmdr.i + 1 } })))) ∧
    (s.cmdr.phase = .eWait →
      (Answered s → step s = .next (recoverIfLatched (assignNext
        { s1 with cmdr := { s1.cmdr with i := s.cmdr.i + 1 } }))) ∧
      (TimedOut s t → step s = .next (recoverIfLatched (finishDiscovery (s.cmdr.i + 1) false f))))

/-- R334 and R336 with R325: an idle commander with a latched panic starts its recovery at a tick: the latch
is consumed and the address after the hop is assigned, 0 for a sentinel hop. (For the hop 252 it measures
at once: `RecoveryPhases`.) -/
def Obligations.PanicStartsRecovery : Prop :=
  ∀ (s : State) (t : U32) (rest : List Event) (a : Nat) (asg : Packet), s.inputs = .tick t :: rest →
    s.cfg.role = .commander → s.cfg.profile = .p1 → s.cmdr.proc = .idle → s.cmdr.panicValid = true →
    (s.timeKnown = true → (t - s.now).toNat < 2 ^ 31) →
    (s.cmdr.panicHop.toNat ≤ 251 ∧ a = s.cmdr.panicHop.toNat + 1) ∨
      (253 ≤ s.cmdr.panicHop.toNat ∧ a = 0) →
    asg = { pid := s.pidCounter, origin := 253, dest := 254, firstHop := 253, ack := true,
            cmd := s.cfg.codes.code .assignAddress, data := [BitVec.ofNat 8 a] } →
    Room s .down [asg] →
    ∃ u, step s = .next u ∧ u.txDown = s.txDown ++ encodePacket s.cfg asg ∧
      u.cmdr.panicValid = false ∧ u.cmdr.recA = a ∧ u.cmdr.proc = .recover ∧ u.cmdr.phase = .raWait ∧
      u.cmdr.waitPid = s.pidCounter ∧ u.cmdr.waitStart = t ∧ u.out = [] ∧ u.node = s.node

/-- The procedures of recovery and re-measurement, in either profile, whatever room the FIFO has. First what
their parts do: `start_recovery` consumes the latch and assigns the address after the hop, 0 for a sentinel
hop, or measures at once after the hop 252 (R334, R336); `measure_start` always starts at address 0 (R335,
93_implementation_defined.md I2); `measure_next` and `measure_finish` (R335); and when a latch starts a recovery
(R325). Then the tick of an idle commander, and of one that recovers: while the wait is pending nothing
changes; RA_WAIT goes on to ENABLE_PROPAGATION where it was answered and else to the measurement, RE_WAIT to
the measurement whatever the answer (R337), M_WAIT to the next address or to the end (R335). -/
def Obligations.RecoveryPhases : Prop :=
  (∀ (s s1 : State) (a : Nat),
    ((s.cmdr.panicHop.toNat ≤ 251 ∧ a = s.cmdr.panicHop.toNat + 1) ∨
      (s.cmdr.panicHop = 252 ∧ a = 253) ∨ (253 ≤ s.cmdr.panicHop.toNat ∧ a = 0)) →
    s1 = { s with cmdr := { s.cmdr with panicValid := false, recA := a } } →
    (a = 253 → startRecovery s = measureStart s1) ∧
    (a ≠ 253 → ∃ r,
      r = request 254 .assignAddress [BitVec.ofNat 8 a] (decide (s.cfg.profile = .p1)) s1 ∧
      startRecovery s = { r with cmdr := { r.cmdr with proc := .recover, phase := .raWait } })) ∧
  (∀ s : State,
    measureStart s = measureNext { s with cmdr := { s.cmdr with i := 0 } } ∧
    (s.cmdr.i = 253 → measureNext s = measureFinish s) ∧
    (s.cmdr.i ≠ 253 → ∃ r, r = request (BitVec.ofNat 8 s.cmdr.i) .probe [] false s ∧
      measureNext s = { r with cmdr := { r.cmdr with proc := .recover, phase := .mWait } }) ∧
    (∃ s1 r, s1 = { s with cmdr := { s.cmdr with chainLength := BitVec.ofNat 8 s.cmdr.i } } ∧
      r = commanderSend 255 .setChainLength [BitVec.ofNat 8 s.cmdr.i] false s1 ∧
      measureFinish s = { r with cmdr := { s1.cmdr with proc := .idle } }) ∧
    (s.cmdr.proc = .idle → s.cmdr.panicValid = true → recoverIfLatched s = startRecovery s) ∧
    (¬(s.cmdr.proc = .idle ∧ s.cmdr.panicValid = true) → recoverIfLatched s = s)) ∧
  ∀ (s s1 f : State) (t : U32) (rest : List Event), s.inputs = .tick t :: rest →
    s.cfg.role = .commander → (s.timeKnown = true → (t - s.now).toNat < 2 ^ 31) →
    s1 = { s with now := t, timeKnown := true, out := [], raised := [], inputs := rest } →
    f = raise (.ackTimeout s.cmdr.waitPid) s1 →
    (s.cmdr.proc = .idle → step s = .next (recoverIfLatched s1)) ∧
    (s.cmdr.proc = .recover → StillWaiting s t → step s = .next s1) ∧
    (s.cmdr.proc = .recover → s.cmdr.phase = .raWait →
      (TimedOut s t → step s = .next (measureStart f)) ∧
      (Answered s → (s.cfg.profile = .p1 ∨ .enablePropagation ∈ s.cfg.ackCommandsP2) → ∃ r,
        r = request (BitVec.ofNat 8 s.cmdr.recA) .enablePropagation [] (decide (s.cfg.profile = .p1)) s1 ∧
        step s = .next { r with cmdr := { r.cmdr with proc := .recover, phase := .reWait } }) ∧
      (Answered s → ¬(s.cfg.profile = .p1 ∨ .enablePropagation ∈ s.cfg.ackCommandsP2) →
        step s = .next (measureStart
          (commanderSend (BitVec.ofNat 8 s.cmdr.recA) .enablePropagation [] false s1)))) ∧
    (s.cmdr.proc = .recover → s.cmdr.phase = .reWait →
      (Answered s → step s = .next (measureStart s1)) ∧
      (TimedOut s t → step s = .next (measureStart f))) ∧
    (s.cmdr.proc = .recover → s.cmdr.phase = .mWait →
      (Answered s → step s = .next (recoverIfLatched (measureNext
        { s1 with cmdr := { s1.cmdr with i := s.cmdr.i + 1 } }))) ∧
      (TimedOut s t → step s = .next (recoverIfLatched (measureFinish f))))

/-- R323 for the acknowledged send (R338): at a tick past the deadline the wait is over, with success if the
answer has come and failure otherwise; it never hangs, and before the deadline without an answer nothing
of the commander changes. -/
def Obligations.AcknowledgedSendNeverHangs : Prop :=
  ∀ (s : State) (t : U32) (rest : List Event), s.inputs = .tick t :: rest →
    s.cfg.role = .commander → s.cmdr.proc = .sendWait → s.cmdr.phase = .sWait →
    (t - s.now).toNat < 2 ^ 31 →
    ((∃ e ∈ s.cmdr.ring, e.valid = true ∧ e.pid = s.cmdr.waitPid ∧ e.acked = true) →
      ∃ u, step s = .next u ∧ u.cmdr.proc ≠ .sendWait ∧ u.out = [.hostResult .command true]) ∧
    ((∀ e ∈ s.cmdr.ring, e.valid = true → e.pid = s.cmdr.waitPid → e.acked = false) →
      (s.cfg.ackTimeoutMs.toNat ≤ (t - s.cmdr.waitStart).toNat →
        ∃ u, step s = .next u ∧ u.cmdr.proc = .recover ∧ u.out = [.hostResult .command false] ∧
          .ackTimeout s.cmdr.waitPid ∈ u.raised ∧
          u.cmdr.panicHop = if s.cmdr.waitDest = 0 then 254 else s.cmdr.waitDest - 1) ∧
      ((t - s.cmdr.waitStart).toNat < s.cfg.ackTimeoutMs.toNat →
        ∃ u, step s = .next u ∧ u.cmdr = s.cmdr ∧ u.out = [] ∧ u.txDown = s.txDown))

/-- A host call that arrives while a procedure runs is refused with one result `false` and nothing else (R350);
an accepted one either emits exactly one result at once or leaves a procedure running that owes it, and
then emits none (R330, R338 and R352; R351 is the spec's own inference from them). -/
def Obligations.HostCallsAnswerOnce : Prop :=
  ∀ (s : State) (op : HostOp) (rest : List Event), s.inputs = .hostCall op :: rest →
    s.cfg.role = .commander →
    (s.cmdr.proc ≠ .idle →
      step s = .next { s with out := [.hostResult (hostOpName op) false], raised := [], inputs := rest }) ∧
    (∀ t, s.cmdr.proc = .idle → step s = .next t →
      (t.cmdr.proc = .idle ∧ ∃ n ok, t.out = [.hostResult n ok]) ∨ (t.cmdr.proc ≠ .idle ∧ t.out = []))

/-- R338 with R352: a host call that is one command sends its packet from 253 with a fresh packet id; where
no ACK is asked for it reports true at once, and where the destination is a node that will answer the
commander waits for that packet's id. `set_string` sends one SET_CHARACTER to each address from 0 on, as many
as the string and the chain have in common, and reports true once. That a mapped call reports under the name
`command` is the model's reading of R352 (notes/assumptions/13.md). -/
def Obligations.HostCommandSendsItsPacket : Prop :=
  (∀ (s s1 : State) (op : HostOp) (rest : List Event) (d : Byte) (n : CmdName) (data : List Byte)
    (want : Bool), s.inputs = .hostCall op :: rest → s.cfg.role = .commander → s.cmdr.proc = .idle →
    hostCommand op = some (d, n, data, want) → data.length ≤ 255 →
    s1 = { s with out := [], raised := [], inputs := rest } →
    ∃ snt, snt = send .down
        { pid := (freshPid s1).1, origin := 253, dest := d, firstHop := 253,
          ack := decide (s.cfg.profile = .p1) && want, cmd := s.cfg.codes.code n, data := data }
        (freshPid s1).2 ∧
      (¬(want = true ∧ d.toNat ≤ 252 ∧ (s.cfg.profile = .p1 ∨ n ∈ s.cfg.ackCommandsP2)) →
        step s = .next { snt with out := [.hostResult .command true] }) ∧
      (want = true ∧ d.toNat ≤ 252 ∧ (s.cfg.profile = .p1 ∨ n ∈ s.cfg.ackCommandsP2) →
        ∃ t, step s = .next t ∧ t.cmdr.proc = .sendWait ∧ t.cmdr.phase = .sWait ∧
          t.cmdr.waitPid = (freshPid s1).1 ∧ t.cmdr.waitStart = s.now ∧ t.cmdr.waitDest = d ∧
          t.cmdr.ringW = s.cmdr.ringW + 1 ∧ t.cmdr.chainLength = s.cmdr.chainLength ∧
          t.cmdr.panicValid = s.cmdr.panicValid ∧ t.txDown = snt.txDown ∧ t.out = [] ∧ t.node = s.node)) ∧
  (∀ (s : State) (str : List Byte) (rest : List Event), s.inputs = .hostCall (.setString str) :: rest →
    s.cfg.role = .commander → s.cmdr.proc = .idle → ∃ r,
      r = sendCharacters 0 (str.take (min str.length s.cmdr.chainLength.toNat))
        { s with out := [], raised := [], inputs := rest } ∧
      step s = .next { r with out := [.hostResult .setString true] }) ∧
  ∀ (s : State) (k : Nat), sendCharacters k [] s = s ∧
    ∀ g str, sendCharacters k (g :: str) s =
      sendCharacters (k + 1) str (commanderSend (BitVec.ofNat 8 k) .setCharacter [g] false s)

/-! ## Invariants and whole-machine rules -/

/-- The discovery state and the address agree, the probe-timeout runs only at an ASSIGNED node and a reserved
address is never stored: every step keeps that, in either role. It follows from R212, R220, R222 and R227;
R213 is the spec's own inference from them. -/
def Obligations.AddressInvariantKept : Prop :=
  ∀ s t : State, AddressInv s.node → step s = .next t → AddressInv t.node

/-- Bus mode and the terminating state hold only with propagation enabled, and every step keeps that: the
model's own reading together of R225, R234, R220 and R33. -/
def Obligations.ModeInvariantKept : Prop :=
  ∀ s t : State, ModeInv s.node → step s = .next t → ModeInv t.node

/-- The framers' invariant and the FIFOs' bound (R40, R41) are kept by every step. R163, that the capture never
exceeds CAP_MAX, is the spec's own inference. -/
def Obligations.BufferBoundsKept : Prop :=
  ∀ s t : State, FramerInv s.cfg s.frUp ∧ FramerInv s.cfg s.frDown ∧ FifoInv s → step s = .next t →
    FramerInv t.cfg t.frUp ∧ FramerInv t.cfg t.frDown ∧ FifoInv t

/-- The commander's invariant (R47, R48 and the phases of R330 to R338) is kept by every step: in particular the
awaited request is never overwritten while it is awaited, which R404 says as the spec's own inference. -/
def Obligations.CommanderInvariantKept : Prop :=
  ∀ s t : State, CommanderInv s.cmdr → step s = .next t → CommanderInv t.cmdr

/-- The invariants hold right after reset, in either role and at any time. That `i` and `rec_a` lie in 0..253 there
rests on the zeros the model gives them, since R390 leaves them unspecified (notes/assumptions/3.md). -/
def Obligations.InvariantsHoldAtReset : Prop :=
  ∀ (cfg : Config) (now : U32) (k : Bool), cfg.wf = true →
    AddressInv (State.resetWith cfg now k).node ∧ ModeInv (State.resetWith cfg now k).node ∧
      FramerInv cfg (State.resetWith cfg now k).frUp ∧ FramerInv cfg (State.resetWith cfg now k).frDown ∧
      FifoInv (State.resetWith cfg now k) ∧ CommanderInv (State.resetWith cfg now k).cmdr

/-- R212: the transitions of `chain_state`. A step that changes it makes one of these, under the row's
condition, and no other; the external reset of R390 is the one further way. -/
def Obligations.ChainStateTransitions : Prop :=
  ∀ s t : State, AddressInv s.node → step s = .next t → t.node.chainState ≠ s.node.chainState →
    ((s.node.chainState = .unassigned ∧ t.node.chainState = .discovering ∧
        ∃ now rest, s.inputs = .tick now :: rest ∧
          s.cfg.discoveryIntervalMs.toNat ≤ (now - s.node.lastAnnounce).toNat) ∨
      ((s.node.chainState = .unassigned ∨ s.node.chainState = .discovering) ∧
        t.node.chainState = .assigned ∧ t.node.probeArmed = true ∧ s.cfg.discoveryMode = .nodeToNode ∧
        ∃ p, nextInstr s = some (.up, .probe p) ∧ p.dest = 255 ∧ p.origin ≠ 252 ∧ p.origin ≠ 255) ∨
      (t.node.chainState = .assigned ∧ t.node.probeArmed = false ∧
        ∃ p, nextInstr s = some (.up, .assignAddress p) ∧ (p.data.getD 0 0).toNat ≤ 252) ∨
      (s.node.chainState = .assigned ∧ s.node.probeArmed = true ∧ t.node.chainState = .relay ∧
        ∃ p, nextInstr s = some (.down, .probeResponse p) ∧ p.dest = s.node.localAddress) ∨
      (s.node.chainState = .assigned ∧ s.node.probeArmed = true ∧ t.node.chainState = .terminating ∧
        s.cfg.discoveryMode = .nodeToNode ∧ ∃ now rest, s.inputs = .tick now :: rest ∧
          s.cfg.probeTimeoutMult * s.cfg.discoveryIntervalMs.toNat ≤ (now - s.node.probeStart).toNat) ∨
      (t.node.chainState = .unassigned ∧
        ((∃ p, nextInstr s = some (.up, .reset p)) ∨
          ∃ now rest, s.inputs = .externalReset now :: rest)))

/-- The writers of ChainConfig (R31 to R34): a step changes the address only by ASSIGN_ADDRESS, PROBE or RESET,
and the chain length only by SET_CHAIN_LENGTH, TERMINATOR_ANNOUNCE, RESET or a tick; sets propagation only by
ENABLE_PROPAGATION, TERMINATOR_ANNOUNCE or a tick and clears it only by RESET; sets bus mode only by
START_BUS_MODE and clears it only by END_BUS_MODE or RESET; an external reset apart. -/
def Obligations.WritersOfChainConfig : Prop :=
  ∀ s t : State, step s = .next t → (∀ now rest, s.inputs ≠ .externalReset now :: rest) →
    (t.node.localAddress ≠ s.node.localAddress →
      ∃ p, nextInstr s = some (.up, .assignAddress p) ∨ nextInstr s = some (.up, .probe p) ∨
        nextInstr s = some (.up, .reset p)) ∧
    (t.node.chainLength ≠ s.node.chainLength →
      (∃ p, nextInstr s = some (.up, .setChainLength p) ∨
        nextInstr s = some (.down, .terminatorAnnounce p) ∨ nextInstr s = some (.up, .reset p)) ∨
      ∃ now rest, s.inputs = .tick now :: rest) ∧
    (s.node.propagationMode = true → t.node.propagationMode = false →
      ∃ p, nextInstr s = some (.up, .reset p)) ∧
    (s.node.propagationMode = false → t.node.propagationMode = true →
      (∃ p, nextInstr s = some (.up, .enablePropagation p) ∨
        nextInstr s = some (.down, .terminatorAnnounce p)) ∨
      ∃ now rest, s.inputs = .tick now :: rest) ∧
    (s.node.busMode = true → t.node.busMode = false →
      ∃ p, nextInstr s = some (.up, .endBusMode p) ∨ nextInstr s = some (.up, .reset p)) ∧
    (s.node.busMode = false → t.node.busMode = true →
      s.node.propagationMode = true ∧ ∃ p, nextInstr s = some (.up, .startBusMode p))

/-- No step changes the configuration (R45); at a node no step but an external reset writes a commander register,
and at the commander none writes a node register. That an agent's state holds the other role's registers at
all is the model's choice (notes/assumptions/16.md); which rules an agent runs is R371's. -/
def Obligations.ConfigurationAndRolesStayApart : Prop :=
  ∀ s t : State, step s = .next t →
    t.cfg = s.cfg ∧
      ((∀ now rest, s.inputs ≠ .externalReset now :: rest) →
        (s.cfg.role = .node → t.cmdr = s.cmdr) ∧ (s.cfg.role = .commander → t.node = s.node))

/-- R62 and R263: `freeze` is never left raised between steps. -/
def Obligations.FreezeIsLoweredWithinTheStep : Prop :=
  ∀ s t : State, s.node.freeze = false → step s = .next t → t.node.freeze = false

/-- The bytes of an ENABLE_PROPAGATION are not forwarded by the node it enables: the step that executes it leaves
the DOWN FIFO as it was. It follows from R150 and R223; R400 is the spec's own inference from them. -/
def Obligations.EnablingCommandIsNotForwarded : Prop :=
  ∀ (s t : State) (p : Body), s.cfg.role = .node → s.node.propagationMode = false →
    nextInstr s = some (.up, .enablePropagation p) → step s = .next t → t.txDown = s.txDown

/-! ## The chain -/

/-- R30: the links of a chain pair its ports: the port linked to a linked port is the port itself, no link
joins an agent to itself, and a link joins a DOWN port to an UP port. -/
def Obligations.LinksPairPorts : Prop :=
  ∀ (n : Nat) (a b : AgentId) (p q : Port), (∀ k, a = .node k → k < n) →
    chainLink n a p = some (b, q) →
    chainLink n b q = some (a, p) ∧ a ≠ b ∧ q = p.other

/-- R67, R80 and R374: transmitting from a port with a linked one takes the head byte off the sender's FIFO
and has the receiver handle exactly that byte; no other agent changes. That this holds also where the receiver
is in bus mode, whose pass-through path (outside the spec's scope, R8) would carry the byte on, is the model's
choice (notes/assumptions/15.md). -/
def Obligations.TransmitMovesOneByte : Prop :=
  ∀ (c c' : Chain) (a a' : AgentId) (p p' : Port) (s r : State) (b : Byte) (q : List Byte),
    chainAgent c a = some s → chainAgent c a' = some r → s.txq p = b :: q →
    chainLink c.nodes.length a p = some (a', p') → transmit a p c = .next c' →
    (∃ s', chainAgent c' a = some s' ∧ s'.txq p = q) ∧
      (∃ r', step { r with inputs := .rxByte p' b :: r.inputs } = .next r' ∧
        chainAgent c' a' = some r') ∧
      ∀ d, d ≠ a → d ≠ a' → chainAgent c' d = chainAgent c d
end

