-- ==== Sys2Proof/Laws/State.lean ====
section
/-! SUPPORT. The small lemmas of the state: for each update, the fields it leaves alone and the values it
writes. Later proofs cite these and unfold no record update. -/

namespace Sys2Proof.Machine

open Sys2Proof

/-! ## Ports -/

@[simp] theorem setFramer_framer_same (s : State) (p : Port) (f : Framer) :
    (s.setFramer p f).framer p = f := by cases p <;> rfl

@[simp] theorem setFramer_framer_other (s : State) (p : Port) (f : Framer) :
    (s.setFramer p f).framer p.other = s.framer p.other := by cases p <;> rfl

@[simp] theorem setTxq_txq_same (s : State) (p : Port) (q : List Byte) : (s.setTxq p q).txq p = q := by
  cases p <;> rfl

@[simp] theorem setTxq_txq_other (s : State) (p : Port) (q : List Byte) :
    (s.setTxq p q).txq p.other = s.txq p.other := by cases p <;> rfl

@[simp] theorem setTxq_txq_self (s : State) (p : Port) : s.setTxq p (s.txq p) = s := by cases p <;> rfl

@[simp] theorem setTxq_up_txUp (s : State) (q : List Byte) : (s.setTxq .up q).txUp = q := rfl

@[simp] theorem setTxq_up_txDown (s : State) (q : List Byte) : (s.setTxq .up q).txDown = s.txDown := rfl

@[simp] theorem setTxq_down_txDown (s : State) (q : List Byte) : (s.setTxq .down q).txDown = q := rfl

@[simp] theorem setTxq_down_txUp (s : State) (q : List Byte) : (s.setTxq .down q).txUp = s.txUp := rfl

@[simp] theorem setTxq_framer (s : State) (p q : Port) (l : List Byte) :
    (s.setTxq p l).framer q = s.framer q := by cases p <;> cases q <;> rfl

@[simp] theorem setFramer_txq (s : State) (p q : Port) (f : Framer) :
    (s.setFramer p f).txq q = s.txq q := by cases p <;> cases q <;> rfl

/-! ## Fields left alone -/

@[simp] theorem setFramer_cfg (s : State) (p : Port) (f : Framer) :
    (s.setFramer p f).cfg = s.cfg := by cases p <;> rfl
@[simp] theorem setFramer_now (s : State) (p : Port) (f : Framer) :
    (s.setFramer p f).now = s.now := by cases p <;> rfl
@[simp] theorem setFramer_timeKnown (s : State) (p : Port) (f : Framer) :
    (s.setFramer p f).timeKnown = s.timeKnown := by cases p <;> rfl
@[simp] theorem setFramer_pidCounter (s : State) (p : Port) (f : Framer) :
    (s.setFramer p f).pidCounter = s.pidCounter := by cases p <;> rfl
@[simp] theorem setFramer_drawCount (s : State) (p : Port) (f : Framer) :
    (s.setFramer p f).drawCount = s.drawCount := by cases p <;> rfl
@[simp] theorem setFramer_txUp (s : State) (p : Port) (f : Framer) :
    (s.setFramer p f).txUp = s.txUp := by cases p <;> rfl
@[simp] theorem setFramer_txDown (s : State) (p : Port) (f : Framer) :
    (s.setFramer p f).txDown = s.txDown := by cases p <;> rfl
@[simp] theorem setFramer_senderPort (s : State) (p : Port) (f : Framer) :
    (s.setFramer p f).senderPort = s.senderPort := by cases p <;> rfl
@[simp] theorem setFramer_node (s : State) (p : Port) (f : Framer) :
    (s.setFramer p f).node = s.node := by cases p <;> rfl
@[simp] theorem setFramer_cmdr (s : State) (p : Port) (f : Framer) :
    (s.setFramer p f).cmdr = s.cmdr := by cases p <;> rfl
@[simp] theorem setFramer_touchLevel (s : State) (p : Port) (f : Framer) :
    (s.setFramer p f).touchLevel = s.touchLevel := by cases p <;> rfl
@[simp] theorem setFramer_counters (s : State) (p : Port) (f : Framer) :
    (s.setFramer p f).counters = s.counters := by cases p <;> rfl
@[simp] theorem setFramer_inputs (s : State) (p : Port) (f : Framer) :
    (s.setFramer p f).inputs = s.inputs := by cases p <;> rfl
@[simp] theorem setFramer_out (s : State) (p : Port) (f : Framer) :
    (s.setFramer p f).out = s.out := by cases p <;> rfl
@[simp] theorem setFramer_raised (s : State) (p : Port) (f : Framer) :
    (s.setFramer p f).raised = s.raised := by cases p <;> rfl

@[simp] theorem setTxq_cfg (s : State) (p : Port) (q : List Byte) :
    (s.setTxq p q).cfg = s.cfg := by cases p <;> rfl
@[simp] theorem setTxq_now (s : State) (p : Port) (q : List Byte) :
    (s.setTxq p q).now = s.now := by cases p <;> rfl
@[simp] theorem setTxq_timeKnown (s : State) (p : Port) (q : List Byte) :
    (s.setTxq p q).timeKnown = s.timeKnown := by cases p <;> rfl
@[simp] theorem setTxq_pidCounter (s : State) (p : Port) (q : List Byte) :
    (s.setTxq p q).pidCounter = s.pidCounter := by cases p <;> rfl
@[simp] theorem setTxq_drawCount (s : State) (p : Port) (q : List Byte) :
    (s.setTxq p q).drawCount = s.drawCount := by cases p <;> rfl
@[simp] theorem setTxq_frUp (s : State) (p : Port) (q : List Byte) :
    (s.setTxq p q).frUp = s.frUp := by cases p <;> rfl
@[simp] theorem setTxq_frDown (s : State) (p : Port) (q : List Byte) :
    (s.setTxq p q).frDown = s.frDown := by cases p <;> rfl
@[simp] theorem setTxq_senderPort (s : State) (p : Port) (q : List Byte) :
    (s.setTxq p q).senderPort = s.senderPort := by cases p <;> rfl
@[simp] theorem setTxq_node (s : State) (p : Port) (q : List Byte) :
    (s.setTxq p q).node = s.node := by cases p <;> rfl
@[simp] theorem setTxq_cmdr (s : State) (p : Port) (q : List Byte) :
    (s.setTxq p q).cmdr = s.cmdr := by cases p <;> rfl
@[simp] theorem setTxq_touchLevel (s : State) (p : Port) (q : List Byte) :
    (s.setTxq p q).touchLevel = s.touchLevel := by cases p <;> rfl
@[simp] theorem setTxq_counters (s : State) (p : Port) (q : List Byte) :
    (s.setTxq p q).counters = s.counters := by cases p <;> rfl
@[simp] theorem setTxq_inputs (s : State) (p : Port) (q : List Byte) :
    (s.setTxq p q).inputs = s.inputs := by cases p <;> rfl
@[simp] theorem setTxq_out (s : State) (p : Port) (q : List Byte) :
    (s.setTxq p q).out = s.out := by cases p <;> rfl
@[simp] theorem setTxq_raised (s : State) (p : Port) (q : List Byte) :
    (s.setTxq p q).raised = s.raised := by cases p <;> rfl

@[simp] theorem raise_cfg (e : ErrorEvent) (s : State) : (raise e s).cfg = s.cfg := rfl
@[simp] theorem raise_now (e : ErrorEvent) (s : State) : (raise e s).now = s.now := rfl
@[simp] theorem raise_timeKnown (e : ErrorEvent) (s : State) : (raise e s).timeKnown = s.timeKnown := rfl
@[simp] theorem raise_pidCounter (e : ErrorEvent) (s : State) : (raise e s).pidCounter = s.pidCounter := rfl
@[simp] theorem raise_drawCount (e : ErrorEvent) (s : State) : (raise e s).drawCount = s.drawCount := rfl
@[simp] theorem raise_frUp (e : ErrorEvent) (s : State) : (raise e s).frUp = s.frUp := rfl
@[simp] theorem raise_frDown (e : ErrorEvent) (s : State) : (raise e s).frDown = s.frDown := rfl
@[simp] theorem raise_txUp (e : ErrorEvent) (s : State) : (raise e s).txUp = s.txUp := rfl
@[simp] theorem raise_txDown (e : ErrorEvent) (s : State) : (raise e s).txDown = s.txDown := rfl
@[simp] theorem raise_senderPort (e : ErrorEvent) (s : State) : (raise e s).senderPort = s.senderPort := rfl
@[simp] theorem raise_node (e : ErrorEvent) (s : State) : (raise e s).node = s.node := rfl
@[simp] theorem raise_cmdr (e : ErrorEvent) (s : State) : (raise e s).cmdr = s.cmdr := rfl
@[simp] theorem raise_touchLevel (e : ErrorEvent) (s : State) : (raise e s).touchLevel = s.touchLevel := rfl
@[simp] theorem raise_inputs (e : ErrorEvent) (s : State) : (raise e s).inputs = s.inputs := rfl
@[simp] theorem raise_out (e : ErrorEvent) (s : State) : (raise e s).out = s.out := rfl

@[simp] theorem raise_raised (e : ErrorEvent) (s : State) : (raise e s).raised = s.raised ++ [e] := rfl

@[simp] theorem raise_framer (e : ErrorEvent) (s : State) (p : Port) : (raise e s).framer p = s.framer p := by
  cases p <;> rfl

@[simp] theorem raise_txq (e : ErrorEvent) (s : State) (p : Port) : (raise e s).txq p = s.txq p := by
  cases p <;> rfl

@[simp] theorem raiseOption_cfg (e : Option ErrorEvent) (s : State) :
    (raiseOption e s).cfg = s.cfg := by cases e <;> rfl
@[simp] theorem raiseOption_now (e : Option ErrorEvent) (s : State) :
    (raiseOption e s).now = s.now := by cases e <;> rfl
@[simp] theorem raiseOption_timeKnown (e : Option ErrorEvent) (s : State) :
    (raiseOption e s).timeKnown = s.timeKnown := by cases e <;> rfl
@[simp] theorem raiseOption_pidCounter (e : Option ErrorEvent) (s : State) :
    (raiseOption e s).pidCounter = s.pidCounter := by cases e <;> rfl
@[simp] theorem raiseOption_drawCount (e : Option ErrorEvent) (s : State) :
    (raiseOption e s).drawCount = s.drawCount := by cases e <;> rfl
@[simp] theorem raiseOption_frUp (e : Option ErrorEvent) (s : State) :
    (raiseOption e s).frUp = s.frUp := by cases e <;> rfl
@[simp] theorem raiseOption_frDown (e : Option ErrorEvent) (s : State) :
    (raiseOption e s).frDown = s.frDown := by cases e <;> rfl
@[simp] theorem raiseOption_txUp (e : Option ErrorEvent) (s : State) :
    (raiseOption e s).txUp = s.txUp := by cases e <;> rfl
@[simp] theorem raiseOption_txDown (e : Option ErrorEvent) (s : State) :
    (raiseOption e s).txDown = s.txDown := by cases e <;> rfl
@[simp] theorem raiseOption_senderPort (e : Option ErrorEvent) (s : State) :
    (raiseOption e s).senderPort = s.senderPort := by cases e <;> rfl
@[simp] theorem raiseOption_node (e : Option ErrorEvent) (s : State) :
    (raiseOption e s).node = s.node := by cases e <;> rfl
@[simp] theorem raiseOption_cmdr (e : Option ErrorEvent) (s : State) :
    (raiseOption e s).cmdr = s.cmdr := by cases e <;> rfl
@[simp] theorem raiseOption_touchLevel (e : Option ErrorEvent) (s : State) :
    (raiseOption e s).touchLevel = s.touchLevel := by cases e <;> rfl
@[simp] theorem raiseOption_inputs (e : Option ErrorEvent) (s : State) :
    (raiseOption e s).inputs = s.inputs := by cases e <;> rfl
@[simp] theorem raiseOption_out (e : Option ErrorEvent) (s : State) :
    (raiseOption e s).out = s.out := by cases e <;> rfl

@[simp] theorem emit_cfg (o : Output) (s : State) : (emit o s).cfg = s.cfg := rfl
@[simp] theorem emit_now (o : Output) (s : State) : (emit o s).now = s.now := rfl
@[simp] theorem emit_timeKnown (o : Output) (s : State) : (emit o s).timeKnown = s.timeKnown := rfl
@[simp] theorem emit_pidCounter (o : Output) (s : State) : (emit o s).pidCounter = s.pidCounter := rfl
@[simp] theorem emit_drawCount (o : Output) (s : State) : (emit o s).drawCount = s.drawCount := rfl
@[simp] theorem emit_frUp (o : Output) (s : State) : (emit o s).frUp = s.frUp := rfl
@[simp] theorem emit_frDown (o : Output) (s : State) : (emit o s).frDown = s.frDown := rfl
@[simp] theorem emit_txUp (o : Output) (s : State) : (emit o s).txUp = s.txUp := rfl
@[simp] theorem emit_txDown (o : Output) (s : State) : (emit o s).txDown = s.txDown := rfl
@[simp] theorem emit_senderPort (o : Output) (s : State) : (emit o s).senderPort = s.senderPort := rfl
@[simp] theorem emit_node (o : Output) (s : State) : (emit o s).node = s.node := rfl
@[simp] theorem emit_cmdr (o : Output) (s : State) : (emit o s).cmdr = s.cmdr := rfl
@[simp] theorem emit_touchLevel (o : Output) (s : State) : (emit o s).touchLevel = s.touchLevel := rfl
@[simp] theorem emit_counters (o : Output) (s : State) : (emit o s).counters = s.counters := rfl
@[simp] theorem emit_inputs (o : Output) (s : State) : (emit o s).inputs = s.inputs := rfl
@[simp] theorem emit_raised (o : Output) (s : State) : (emit o s).raised = s.raised := rfl

@[simp] theorem emit_out (o : Output) (s : State) : (emit o s).out = s.out ++ [o] := rfl

@[simp] theorem freshPid_cfg (s : State) : ((freshPid s).2).cfg = s.cfg := by unfold freshPid; split <;> rfl
@[simp] theorem freshPid_now (s : State) : ((freshPid s).2).now = s.now := by unfold freshPid; split <;> rfl
@[simp] theorem freshPid_timeKnown (s : State) :
    ((freshPid s).2).timeKnown = s.timeKnown := by unfold freshPid; split <;> rfl
@[simp] theorem freshPid_frUp (s : State) :
    ((freshPid s).2).frUp = s.frUp := by unfold freshPid; split <;> rfl
@[simp] theorem freshPid_frDown (s : State) :
    ((freshPid s).2).frDown = s.frDown := by unfold freshPid; split <;> rfl
@[simp] theorem freshPid_txUp (s : State) :
    ((freshPid s).2).txUp = s.txUp := by unfold freshPid; split <;> rfl
@[simp] theorem freshPid_txDown (s : State) :
    ((freshPid s).2).txDown = s.txDown := by unfold freshPid; split <;> rfl
@[simp] theorem freshPid_senderPort (s : State) :
    ((freshPid s).2).senderPort = s.senderPort := by unfold freshPid; split <;> rfl
@[simp] theorem freshPid_node (s : State) :
    ((freshPid s).2).node = s.node := by unfold freshPid; split <;> rfl
@[simp] theorem freshPid_cmdr (s : State) :
    ((freshPid s).2).cmdr = s.cmdr := by unfold freshPid; split <;> rfl
@[simp] theorem freshPid_touchLevel (s : State) :
    ((freshPid s).2).touchLevel = s.touchLevel := by unfold freshPid; split <;> rfl
@[simp] theorem freshPid_counters (s : State) :
    ((freshPid s).2).counters = s.counters := by unfold freshPid; split <;> rfl
@[simp] theorem freshPid_inputs (s : State) :
    ((freshPid s).2).inputs = s.inputs := by unfold freshPid; split <;> rfl
@[simp] theorem freshPid_out (s : State) : ((freshPid s).2).out = s.out := by unfold freshPid; split <;> rfl
@[simp] theorem freshPid_raised (s : State) :
    ((freshPid s).2).raised = s.raised := by unfold freshPid; split <;> rfl

@[simp] theorem freshPid_txq (s : State) (p : Port) : (freshPid s).2.txq p = s.txq p := by
  cases p <;> simp [State.txq]

@[simp] theorem send_cfg (p : Port) (pkt : Packet) (s : State) : (send p pkt s).cfg = s.cfg := by
  unfold send; split <;> simp
@[simp] theorem send_now (p : Port) (pkt : Packet) (s : State) : (send p pkt s).now = s.now := by
  unfold send; split <;> simp
@[simp] theorem send_timeKnown (p : Port) (pkt : Packet) (s : State) :
    (send p pkt s).timeKnown = s.timeKnown := by
  unfold send; split <;> simp
@[simp] theorem send_pidCounter (p : Port) (pkt : Packet) (s : State) :
    (send p pkt s).pidCounter = s.pidCounter := by
  unfold send; split <;> simp
@[simp] theorem send_drawCount (p : Port) (pkt : Packet) (s : State) :
    (send p pkt s).drawCount = s.drawCount := by
  unfold send; split <;> simp
@[simp] theorem send_frUp (p : Port) (pkt : Packet) (s : State) : (send p pkt s).frUp = s.frUp := by
  unfold send; split <;> simp
@[simp] theorem send_frDown (p : Port) (pkt : Packet) (s : State) : (send p pkt s).frDown = s.frDown := by
  unfold send; split <;> simp
@[simp] theorem send_senderPort (p : Port) (pkt : Packet) (s : State) :
    (send p pkt s).senderPort = s.senderPort := by
  unfold send; split <;> simp
@[simp] theorem send_node (p : Port) (pkt : Packet) (s : State) : (send p pkt s).node = s.node := by
  unfold send; split <;> simp
@[simp] theorem send_cmdr (p : Port) (pkt : Packet) (s : State) : (send p pkt s).cmdr = s.cmdr := by
  unfold send; split <;> simp
@[simp] theorem send_touchLevel (p : Port) (pkt : Packet) (s : State) :
    (send p pkt s).touchLevel = s.touchLevel := by
  unfold send; split <;> simp
@[simp] theorem send_inputs (p : Port) (pkt : Packet) (s : State) : (send p pkt s).inputs = s.inputs := by
  unfold send; split <;> simp
@[simp] theorem send_out (p : Port) (pkt : Packet) (s : State) : (send p pkt s).out = s.out := by
  unfold send; split <;> simp

@[simp] theorem forward_cfg (p : Port) (b : Byte) (s : State) : (forward p b s).cfg = s.cfg := by
  unfold forward; split <;> simp
@[simp] theorem forward_now (p : Port) (b : Byte) (s : State) : (forward p b s).now = s.now := by
  unfold forward; split <;> simp
@[simp] theorem forward_timeKnown (p : Port) (b : Byte) (s : State) :
    (forward p b s).timeKnown = s.timeKnown := by
  unfold forward; split <;> simp
@[simp] theorem forward_pidCounter (p : Port) (b : Byte) (s : State) :
    (forward p b s).pidCounter = s.pidCounter := by
  unfold forward; split <;> simp
@[simp] theorem forward_drawCount (p : Port) (b : Byte) (s : State) :
    (forward p b s).drawCount = s.drawCount := by
  unfold forward; split <;> simp
@[simp] theorem forward_frUp (p : Port) (b : Byte) (s : State) : (forward p b s).frUp = s.frUp := by
  unfold forward; split <;> simp
@[simp] theorem forward_frDown (p : Port) (b : Byte) (s : State) : (forward p b s).frDown = s.frDown := by
  unfold forward; split <;> simp
@[simp] theorem forward_senderPort (p : Port) (b : Byte) (s : State) :
    (forward p b s).senderPort = s.senderPort := by
  unfold forward; split <;> simp
@[simp] theorem forward_node (p : Port) (b : Byte) (s : State) : (forward p b s).node = s.node := by
  unfold forward; split <;> simp
@[simp] theorem forward_cmdr (p : Port) (b : Byte) (s : State) : (forward p b s).cmdr = s.cmdr := by
  unfold forward; split <;> simp
@[simp] theorem forward_touchLevel (p : Port) (b : Byte) (s : State) :
    (forward p b s).touchLevel = s.touchLevel := by
  unfold forward; split <;> simp
@[simp] theorem forward_inputs (p : Port) (b : Byte) (s : State) : (forward p b s).inputs = s.inputs := by
  unfold forward; split <;> simp
@[simp] theorem forward_out (p : Port) (b : Byte) (s : State) : (forward p b s).out = s.out := by
  unfold forward; split <;> simp

/-- A packet sent on one port leaves the other port's FIFO alone. -/
@[simp] theorem send_txq_other (p : Port) (pkt : Packet) (s : State) :
    (send p pkt s).txq p.other = s.txq p.other := by unfold send; split <;> simp

@[simp] theorem forward_txq_other (p : Port) (b : Byte) (s : State) :
    (forward p b s).txq p.other = s.txq p.other := by unfold forward; split <;> simp

@[simp] theorem originate_cfg (p : Port) (o d h : Byte) (a : Bool) (n : CmdName) (l : List Byte) (s : State) :
    (originate p o d h a n l s).cfg = s.cfg := by
  simp [originate]
@[simp] theorem originate_now (p : Port) (o d h : Byte) (a : Bool) (n : CmdName) (l : List Byte) (s : State) :
    (originate p o d h a n l s).now = s.now := by
  simp [originate]
@[simp] theorem originate_timeKnown (p : Port) (o d h : Byte) (a : Bool) (n : CmdName) (l : List Byte) (s : State) :
    (originate p o d h a n l s).timeKnown = s.timeKnown := by
  simp [originate]
@[simp] theorem originate_frUp (p : Port) (o d h : Byte) (a : Bool) (n : CmdName) (l : List Byte) (s : State) :
    (originate p o d h a n l s).frUp = s.frUp := by
  simp [originate]
@[simp] theorem originate_frDown (p : Port) (o d h : Byte) (a : Bool) (n : CmdName) (l : List Byte) (s : State) :
    (originate p o d h a n l s).frDown = s.frDown := by
  simp [originate]
@[simp] theorem originate_senderPort (p : Port) (o d h : Byte) (a : Bool) (n : CmdName) (l : List Byte) (s : State) :
    (originate p o d h a n l s).senderPort = s.senderPort := by
  simp [originate]
@[simp] theorem originate_node (p : Port) (o d h : Byte) (a : Bool) (n : CmdName) (l : List Byte) (s : State) :
    (originate p o d h a n l s).node = s.node := by
  simp [originate]
@[simp] theorem originate_cmdr (p : Port) (o d h : Byte) (a : Bool) (n : CmdName) (l : List Byte) (s : State) :
    (originate p o d h a n l s).cmdr = s.cmdr := by
  simp [originate]
@[simp] theorem originate_touchLevel (p : Port) (o d h : Byte) (a : Bool) (n : CmdName) (l : List Byte) (s : State) :
    (originate p o d h a n l s).touchLevel = s.touchLevel := by
  simp [originate]
@[simp] theorem originate_inputs (p : Port) (o d h : Byte) (a : Bool) (n : CmdName) (l : List Byte) (s : State) :
    (originate p o d h a n l s).inputs = s.inputs := by
  simp [originate]
@[simp] theorem originate_out (p : Port) (o d h : Byte) (a : Bool) (n : CmdName) (l : List Byte) (s : State) :
    (originate p o d h a n l s).out = s.out := by
  simp [originate]

@[simp] theorem nodeSend_cfg (p : Port) (d : Byte) (n : CmdName) (l : List Byte) (s : State) :
    (nodeSend p d n l s).cfg = s.cfg := by
  simp [nodeSend]
@[simp] theorem nodeSend_now (p : Port) (d : Byte) (n : CmdName) (l : List Byte) (s : State) :
    (nodeSend p d n l s).now = s.now := by
  simp [nodeSend]
@[simp] theorem nodeSend_timeKnown (p : Port) (d : Byte) (n : CmdName) (l : List Byte) (s : State) :
    (nodeSend p d n l s).timeKnown = s.timeKnown := by
  simp [nodeSend]
@[simp] theorem nodeSend_frUp (p : Port) (d : Byte) (n : CmdName) (l : List Byte) (s : State) :
    (nodeSend p d n l s).frUp = s.frUp := by
  simp [nodeSend]
@[simp] theorem nodeSend_frDown (p : Port) (d : Byte) (n : CmdName) (l : List Byte) (s : State) :
    (nodeSend p d n l s).frDown = s.frDown := by
  simp [nodeSend]
@[simp] theorem nodeSend_senderPort (p : Port) (d : Byte) (n : CmdName) (l : List Byte) (s : State) :
    (nodeSend p d n l s).senderPort = s.senderPort := by
  simp [nodeSend]
@[simp] theorem nodeSend_node (p : Port) (d : Byte) (n : CmdName) (l : List Byte) (s : State) :
    (nodeSend p d n l s).node = s.node := by
  simp [nodeSend]
@[simp] theorem nodeSend_cmdr (p : Port) (d : Byte) (n : CmdName) (l : List Byte) (s : State) :
    (nodeSend p d n l s).cmdr = s.cmdr := by
  simp [nodeSend]
@[simp] theorem nodeSend_touchLevel (p : Port) (d : Byte) (n : CmdName) (l : List Byte) (s : State) :
    (nodeSend p d n l s).touchLevel = s.touchLevel := by
  simp [nodeSend]
@[simp] theorem nodeSend_inputs (p : Port) (d : Byte) (n : CmdName) (l : List Byte) (s : State) :
    (nodeSend p d n l s).inputs = s.inputs := by
  simp [nodeSend]
@[simp] theorem nodeSend_out (p : Port) (d : Byte) (n : CmdName) (l : List Byte) (s : State) :
    (nodeSend p d n l s).out = s.out := by
  simp [nodeSend]

@[simp] theorem commanderSend_cfg (d : Byte) (n : CmdName) (l : List Byte) (a : Bool) (s : State) :
    (commanderSend d n l a s).cfg = s.cfg := by
  simp [commanderSend]
@[simp] theorem commanderSend_now (d : Byte) (n : CmdName) (l : List Byte) (a : Bool) (s : State) :
    (commanderSend d n l a s).now = s.now := by
  simp [commanderSend]
@[simp] theorem commanderSend_timeKnown (d : Byte) (n : CmdName) (l : List Byte) (a : Bool) (s : State) :
    (commanderSend d n l a s).timeKnown = s.timeKnown := by
  simp [commanderSend]
@[simp] theorem commanderSend_frUp (d : Byte) (n : CmdName) (l : List Byte) (a : Bool) (s : State) :
    (commanderSend d n l a s).frUp = s.frUp := by
  simp [commanderSend]
@[simp] theorem commanderSend_frDown (d : Byte) (n : CmdName) (l : List Byte) (a : Bool) (s : State) :
    (commanderSend d n l a s).frDown = s.frDown := by
  simp [commanderSend]
@[simp] theorem commanderSend_senderPort (d : Byte) (n : CmdName) (l : List Byte) (a : Bool) (s : State) :
    (commanderSend d n l a s).senderPort = s.senderPort := by
  simp [commanderSend]
@[simp] theorem commanderSend_node (d : Byte) (n : CmdName) (l : List Byte) (a : Bool) (s : State) :
    (commanderSend d n l a s).node = s.node := by
  simp [commanderSend]
@[simp] theorem commanderSend_cmdr (d : Byte) (n : CmdName) (l : List Byte) (a : Bool) (s : State) :
    (commanderSend d n l a s).cmdr = s.cmdr := by
  simp [commanderSend]
@[simp] theorem commanderSend_touchLevel (d : Byte) (n : CmdName) (l : List Byte) (a : Bool) (s : State) :
    (commanderSend d n l a s).touchLevel = s.touchLevel := by
  simp [commanderSend]
@[simp] theorem commanderSend_inputs (d : Byte) (n : CmdName) (l : List Byte) (a : Bool) (s : State) :
    (commanderSend d n l a s).inputs = s.inputs := by
  simp [commanderSend]
@[simp] theorem commanderSend_out (d : Byte) (n : CmdName) (l : List Byte) (a : Bool) (s : State) :
    (commanderSend d n l a s).out = s.out := by
  simp [commanderSend]

@[simp] theorem ackIfRequested_cfg (n : CmdName) (p : Body) (s : State) :
    (ackIfRequested n p s).cfg = s.cfg := by
  unfold ackIfRequested; split <;> simp
@[simp] theorem ackIfRequested_now (n : CmdName) (p : Body) (s : State) :
    (ackIfRequested n p s).now = s.now := by
  unfold ackIfRequested; split <;> simp
@[simp] theorem ackIfRequested_timeKnown (n : CmdName) (p : Body) (s : State) :
    (ackIfRequested n p s).timeKnown = s.timeKnown := by
  unfold ackIfRequested; split <;> simp
@[simp] theorem ackIfRequested_frUp (n : CmdName) (p : Body) (s : State) :
    (ackIfRequested n p s).frUp = s.frUp := by
  unfold ackIfRequested; split <;> simp
@[simp] theorem ackIfRequested_frDown (n : CmdName) (p : Body) (s : State) :
    (ackIfRequested n p s).frDown = s.frDown := by
  unfold ackIfRequested; split <;> simp
@[simp] theorem ackIfRequested_senderPort (n : CmdName) (p : Body) (s : State) :
    (ackIfRequested n p s).senderPort = s.senderPort := by
  unfold ackIfRequested; split <;> simp
@[simp] theorem ackIfRequested_node (n : CmdName) (p : Body) (s : State) :
    (ackIfRequested n p s).node = s.node := by
  unfold ackIfRequested; split <;> simp
@[simp] theorem ackIfRequested_cmdr (n : CmdName) (p : Body) (s : State) :
    (ackIfRequested n p s).cmdr = s.cmdr := by
  unfold ackIfRequested; split <;> simp
@[simp] theorem ackIfRequested_touchLevel (n : CmdName) (p : Body) (s : State) :
    (ackIfRequested n p s).touchLevel = s.touchLevel := by
  unfold ackIfRequested; split <;> simp
@[simp] theorem ackIfRequested_inputs (n : CmdName) (p : Body) (s : State) :
    (ackIfRequested n p s).inputs = s.inputs := by
  unfold ackIfRequested; split <;> simp
@[simp] theorem ackIfRequested_out (n : CmdName) (p : Body) (s : State) :
    (ackIfRequested n p s).out = s.out := by
  unfold ackIfRequested; split <;> simp

@[simp] theorem ringRegister_cfg (pid : U16) (s : State) : (ringRegister pid s).cfg = s.cfg := rfl
@[simp] theorem ringRegister_now (pid : U16) (s : State) : (ringRegister pid s).now = s.now := rfl
@[simp] theorem ringRegister_timeKnown (pid : U16) (s : State) :
    (ringRegister pid s).timeKnown = s.timeKnown := rfl
@[simp] theorem ringRegister_pidCounter (pid : U16) (s : State) :
    (ringRegister pid s).pidCounter = s.pidCounter := rfl
@[simp] theorem ringRegister_drawCount (pid : U16) (s : State) :
    (ringRegister pid s).drawCount = s.drawCount := rfl
@[simp] theorem ringRegister_frUp (pid : U16) (s : State) : (ringRegister pid s).frUp = s.frUp := rfl
@[simp] theorem ringRegister_frDown (pid : U16) (s : State) : (ringRegister pid s).frDown = s.frDown := rfl
@[simp] theorem ringRegister_txUp (pid : U16) (s : State) : (ringRegister pid s).txUp = s.txUp := rfl
@[simp] theorem ringRegister_txDown (pid : U16) (s : State) : (ringRegister pid s).txDown = s.txDown := rfl
@[simp] theorem ringRegister_senderPort (pid : U16) (s : State) :
    (ringRegister pid s).senderPort = s.senderPort := rfl
@[simp] theorem ringRegister_node (pid : U16) (s : State) : (ringRegister pid s).node = s.node := rfl
@[simp] theorem ringRegister_touchLevel (pid : U16) (s : State) :
    (ringRegister pid s).touchLevel = s.touchLevel := rfl
@[simp] theorem ringRegister_counters (pid : U16) (s : State) :
    (ringRegister pid s).counters = s.counters := rfl
@[simp] theorem ringRegister_inputs (pid : U16) (s : State) : (ringRegister pid s).inputs = s.inputs := rfl
@[simp] theorem ringRegister_out (pid : U16) (s : State) : (ringRegister pid s).out = s.out := rfl
@[simp] theorem ringRegister_raised (pid : U16) (s : State) : (ringRegister pid s).raised = s.raised := rfl

@[simp] theorem ringAck_cfg (pid : U16) (s : State) : (ringAck pid s).cfg = s.cfg := rfl
@[simp] theorem ringAck_now (pid : U16) (s : State) : (ringAck pid s).now = s.now := rfl
@[simp] theorem ringAck_timeKnown (pid : U16) (s : State) : (ringAck pid s).timeKnown = s.timeKnown := rfl
@[simp] theorem ringAck_pidCounter (pid : U16) (s : State) : (ringAck pid s).pidCounter = s.pidCounter := rfl
@[simp] theorem ringAck_drawCount (pid : U16) (s : State) : (ringAck pid s).drawCount = s.drawCount := rfl
@[simp] theorem ringAck_frUp (pid : U16) (s : State) : (ringAck pid s).frUp = s.frUp := rfl
@[simp] theorem ringAck_frDown (pid : U16) (s : State) : (ringAck pid s).frDown = s.frDown := rfl
@[simp] theorem ringAck_txUp (pid : U16) (s : State) : (ringAck pid s).txUp = s.txUp := rfl
@[simp] theorem ringAck_txDown (pid : U16) (s : State) : (ringAck pid s).txDown = s.txDown := rfl
@[simp] theorem ringAck_senderPort (pid : U16) (s : State) : (ringAck pid s).senderPort = s.senderPort := rfl
@[simp] theorem ringAck_node (pid : U16) (s : State) : (ringAck pid s).node = s.node := rfl
@[simp] theorem ringAck_touchLevel (pid : U16) (s : State) : (ringAck pid s).touchLevel = s.touchLevel := rfl
@[simp] theorem ringAck_counters (pid : U16) (s : State) : (ringAck pid s).counters = s.counters := rfl
@[simp] theorem ringAck_inputs (pid : U16) (s : State) : (ringAck pid s).inputs = s.inputs := rfl
@[simp] theorem ringAck_out (pid : U16) (s : State) : (ringAck pid s).out = s.out := rfl
@[simp] theorem ringAck_raised (pid : U16) (s : State) : (ringAck pid s).raised = s.raised := rfl

@[simp] theorem request_cfg (d : Byte) (n : CmdName) (l : List Byte) (a : Bool) (s : State) :
    (request d n l a s).cfg = s.cfg := by
  simp [request]
@[simp] theorem request_now (d : Byte) (n : CmdName) (l : List Byte) (a : Bool) (s : State) :
    (request d n l a s).now = s.now := by
  simp [request]
@[simp] theorem request_timeKnown (d : Byte) (n : CmdName) (l : List Byte) (a : Bool) (s : State) :
    (request d n l a s).timeKnown = s.timeKnown := by
  simp [request]
@[simp] theorem request_frUp (d : Byte) (n : CmdName) (l : List Byte) (a : Bool) (s : State) :
    (request d n l a s).frUp = s.frUp := by
  simp [request]
@[simp] theorem request_frDown (d : Byte) (n : CmdName) (l : List Byte) (a : Bool) (s : State) :
    (request d n l a s).frDown = s.frDown := by
  simp [request]
@[simp] theorem request_senderPort (d : Byte) (n : CmdName) (l : List Byte) (a : Bool) (s : State) :
    (request d n l a s).senderPort = s.senderPort := by
  simp [request]
@[simp] theorem request_node (d : Byte) (n : CmdName) (l : List Byte) (a : Bool) (s : State) :
    (request d n l a s).node = s.node := by
  simp [request]
@[simp] theorem request_touchLevel (d : Byte) (n : CmdName) (l : List Byte) (a : Bool) (s : State) :
    (request d n l a s).touchLevel = s.touchLevel := by
  simp [request]
@[simp] theorem request_inputs (d : Byte) (n : CmdName) (l : List Byte) (a : Bool) (s : State) :
    (request d n l a s).inputs = s.inputs := by
  simp [request]
@[simp] theorem request_out (d : Byte) (n : CmdName) (l : List Byte) (a : Bool) (s : State) :
    (request d n l a s).out = s.out := by
  simp [request]

@[simp] theorem enter_cfg (p : Proc) (ph : Phase) (s : State) : (enter p ph s).cfg = s.cfg := rfl
@[simp] theorem enter_now (p : Proc) (ph : Phase) (s : State) : (enter p ph s).now = s.now := rfl
@[simp] theorem enter_timeKnown (p : Proc) (ph : Phase) (s : State) :
    (enter p ph s).timeKnown = s.timeKnown := rfl
@[simp] theorem enter_pidCounter (p : Proc) (ph : Phase) (s : State) :
    (enter p ph s).pidCounter = s.pidCounter := rfl
@[simp] theorem enter_drawCount (p : Proc) (ph : Phase) (s : State) :
    (enter p ph s).drawCount = s.drawCount := rfl
@[simp] theorem enter_frUp (p : Proc) (ph : Phase) (s : State) : (enter p ph s).frUp = s.frUp := rfl
@[simp] theorem enter_frDown (p : Proc) (ph : Phase) (s : State) : (enter p ph s).frDown = s.frDown := rfl
@[simp] theorem enter_txUp (p : Proc) (ph : Phase) (s : State) : (enter p ph s).txUp = s.txUp := rfl
@[simp] theorem enter_txDown (p : Proc) (ph : Phase) (s : State) : (enter p ph s).txDown = s.txDown := rfl
@[simp] theorem enter_senderPort (p : Proc) (ph : Phase) (s : State) :
    (enter p ph s).senderPort = s.senderPort := rfl
@[simp] theorem enter_node (p : Proc) (ph : Phase) (s : State) : (enter p ph s).node = s.node := rfl
@[simp] theorem enter_touchLevel (p : Proc) (ph : Phase) (s : State) :
    (enter p ph s).touchLevel = s.touchLevel := rfl
@[simp] theorem enter_counters (p : Proc) (ph : Phase) (s : State) :
    (enter p ph s).counters = s.counters := rfl
@[simp] theorem enter_inputs (p : Proc) (ph : Phase) (s : State) : (enter p ph s).inputs = s.inputs := rfl
@[simp] theorem enter_out (p : Proc) (ph : Phase) (s : State) : (enter p ph s).out = s.out := rfl
@[simp] theorem enter_raised (p : Proc) (ph : Phase) (s : State) : (enter p ph s).raised = s.raised := rfl

@[simp] theorem goIdle_cfg (s : State) : (goIdle s).cfg = s.cfg := rfl
@[simp] theorem goIdle_now (s : State) : (goIdle s).now = s.now := rfl
@[simp] theorem goIdle_timeKnown (s : State) : (goIdle s).timeKnown = s.timeKnown := rfl
@[simp] theorem goIdle_pidCounter (s : State) : (goIdle s).pidCounter = s.pidCounter := rfl
@[simp] theorem goIdle_drawCount (s : State) : (goIdle s).drawCount = s.drawCount := rfl
@[simp] theorem goIdle_frUp (s : State) : (goIdle s).frUp = s.frUp := rfl
@[simp] theorem goIdle_frDown (s : State) : (goIdle s).frDown = s.frDown := rfl
@[simp] theorem goIdle_txUp (s : State) : (goIdle s).txUp = s.txUp := rfl
@[simp] theorem goIdle_txDown (s : State) : (goIdle s).txDown = s.txDown := rfl
@[simp] theorem goIdle_senderPort (s : State) : (goIdle s).senderPort = s.senderPort := rfl
@[simp] theorem goIdle_node (s : State) : (goIdle s).node = s.node := rfl
@[simp] theorem goIdle_touchLevel (s : State) : (goIdle s).touchLevel = s.touchLevel := rfl
@[simp] theorem goIdle_counters (s : State) : (goIdle s).counters = s.counters := rfl
@[simp] theorem goIdle_inputs (s : State) : (goIdle s).inputs = s.inputs := rfl
@[simp] theorem goIdle_out (s : State) : (goIdle s).out = s.out := rfl
@[simp] theorem goIdle_raised (s : State) : (goIdle s).raised = s.raised := rfl

@[simp] theorem setI_cfg (n : Nat) (s : State) : (setI n s).cfg = s.cfg := rfl
@[simp] theorem setI_now (n : Nat) (s : State) : (setI n s).now = s.now := rfl
@[simp] theorem setI_timeKnown (n : Nat) (s : State) : (setI n s).timeKnown = s.timeKnown := rfl
@[simp] theorem setI_pidCounter (n : Nat) (s : State) : (setI n s).pidCounter = s.pidCounter := rfl
@[simp] theorem setI_drawCount (n : Nat) (s : State) : (setI n s).drawCount = s.drawCount := rfl
@[simp] theorem setI_frUp (n : Nat) (s : State) : (setI n s).frUp = s.frUp := rfl
@[simp] theorem setI_frDown (n : Nat) (s : State) : (setI n s).frDown = s.frDown := rfl
@[simp] theorem setI_txUp (n : Nat) (s : State) : (setI n s).txUp = s.txUp := rfl
@[simp] theorem setI_txDown (n : Nat) (s : State) : (setI n s).txDown = s.txDown := rfl
@[simp] theorem setI_senderPort (n : Nat) (s : State) : (setI n s).senderPort = s.senderPort := rfl
@[simp] theorem setI_node (n : Nat) (s : State) : (setI n s).node = s.node := rfl
@[simp] theorem setI_touchLevel (n : Nat) (s : State) : (setI n s).touchLevel = s.touchLevel := rfl
@[simp] theorem setI_counters (n : Nat) (s : State) : (setI n s).counters = s.counters := rfl
@[simp] theorem setI_inputs (n : Nat) (s : State) : (setI n s).inputs = s.inputs := rfl
@[simp] theorem setI_out (n : Nat) (s : State) : (setI n s).out = s.out := rfl
@[simp] theorem setI_raised (n : Nat) (s : State) : (setI n s).raised = s.raised := rfl

@[simp] theorem latchPanic_cfg (h : Byte) (s : State) : (latchPanic h s).cfg = s.cfg := rfl
@[simp] theorem latchPanic_now (h : Byte) (s : State) : (latchPanic h s).now = s.now := rfl
@[simp] theorem latchPanic_timeKnown (h : Byte) (s : State) : (latchPanic h s).timeKnown = s.timeKnown := rfl
@[simp] theorem latchPanic_pidCounter (h : Byte) (s : State) :
    (latchPanic h s).pidCounter = s.pidCounter := rfl
@[simp] theorem latchPanic_drawCount (h : Byte) (s : State) : (latchPanic h s).drawCount = s.drawCount := rfl
@[simp] theorem latchPanic_frUp (h : Byte) (s : State) : (latchPanic h s).frUp = s.frUp := rfl
@[simp] theorem latchPanic_frDown (h : Byte) (s : State) : (latchPanic h s).frDown = s.frDown := rfl
@[simp] theorem latchPanic_txUp (h : Byte) (s : State) : (latchPanic h s).txUp = s.txUp := rfl
@[simp] theorem latchPanic_txDown (h : Byte) (s : State) : (latchPanic h s).txDown = s.txDown := rfl
@[simp] theorem latchPanic_senderPort (h : Byte) (s : State) :
    (latchPanic h s).senderPort = s.senderPort := rfl
@[simp] theorem latchPanic_node (h : Byte) (s : State) : (latchPanic h s).node = s.node := rfl
@[simp] theorem latchPanic_touchLevel (h : Byte) (s : State) :
    (latchPanic h s).touchLevel = s.touchLevel := rfl
@[simp] theorem latchPanic_counters (h : Byte) (s : State) : (latchPanic h s).counters = s.counters := rfl
@[simp] theorem latchPanic_inputs (h : Byte) (s : State) : (latchPanic h s).inputs = s.inputs := rfl
@[simp] theorem latchPanic_out (h : Byte) (s : State) : (latchPanic h s).out = s.out := rfl
@[simp] theorem latchPanic_raised (h : Byte) (s : State) : (latchPanic h s).raised = s.raised := rfl

@[simp] theorem announceLength_cfg (n : Nat) (s : State) : (announceLength n s).cfg = s.cfg := by
  simp [announceLength]
@[simp] theorem announceLength_now (n : Nat) (s : State) : (announceLength n s).now = s.now := by
  simp [announceLength]
@[simp] theorem announceLength_timeKnown (n : Nat) (s : State) :
    (announceLength n s).timeKnown = s.timeKnown := by
  simp [announceLength]
@[simp] theorem announceLength_frUp (n : Nat) (s : State) : (announceLength n s).frUp = s.frUp := by
  simp [announceLength]
@[simp] theorem announceLength_frDown (n : Nat) (s : State) : (announceLength n s).frDown = s.frDown := by
  simp [announceLength]
@[simp] theorem announceLength_senderPort (n : Nat) (s : State) :
    (announceLength n s).senderPort = s.senderPort := by
  simp [announceLength]
@[simp] theorem announceLength_node (n : Nat) (s : State) : (announceLength n s).node = s.node := by
  simp [announceLength]
@[simp] theorem announceLength_touchLevel (n : Nat) (s : State) :
    (announceLength n s).touchLevel = s.touchLevel := by
  simp [announceLength]
@[simp] theorem announceLength_inputs (n : Nat) (s : State) : (announceLength n s).inputs = s.inputs := by
  simp [announceLength]
@[simp] theorem announceLength_out (n : Nat) (s : State) : (announceLength n s).out = s.out := by
  simp [announceLength]

@[simp] theorem emitRenderSets_cfg (l : List RenderSet) (s : State) : (emitRenderSets l s).cfg = s.cfg := rfl
@[simp] theorem emitRenderSets_now (l : List RenderSet) (s : State) : (emitRenderSets l s).now = s.now := rfl
@[simp] theorem emitRenderSets_timeKnown (l : List RenderSet) (s : State) :
    (emitRenderSets l s).timeKnown = s.timeKnown := rfl
@[simp] theorem emitRenderSets_pidCounter (l : List RenderSet) (s : State) :
    (emitRenderSets l s).pidCounter = s.pidCounter := rfl
@[simp] theorem emitRenderSets_drawCount (l : List RenderSet) (s : State) :
    (emitRenderSets l s).drawCount = s.drawCount := rfl
@[simp] theorem emitRenderSets_frUp (l : List RenderSet) (s : State) :
    (emitRenderSets l s).frUp = s.frUp := rfl
@[simp] theorem emitRenderSets_frDown (l : List RenderSet) (s : State) :
    (emitRenderSets l s).frDown = s.frDown := rfl
@[simp] theorem emitRenderSets_txUp (l : List RenderSet) (s : State) :
    (emitRenderSets l s).txUp = s.txUp := rfl
@[simp] theorem emitRenderSets_txDown (l : List RenderSet) (s : State) :
    (emitRenderSets l s).txDown = s.txDown := rfl
@[simp] theorem emitRenderSets_senderPort (l : List RenderSet) (s : State) :
    (emitRenderSets l s).senderPort = s.senderPort := rfl
@[simp] theorem emitRenderSets_node (l : List RenderSet) (s : State) :
    (emitRenderSets l s).node = s.node := rfl
@[simp] theorem emitRenderSets_cmdr (l : List RenderSet) (s : State) :
    (emitRenderSets l s).cmdr = s.cmdr := rfl
@[simp] theorem emitRenderSets_touchLevel (l : List RenderSet) (s : State) :
    (emitRenderSets l s).touchLevel = s.touchLevel := rfl
@[simp] theorem emitRenderSets_counters (l : List RenderSet) (s : State) :
    (emitRenderSets l s).counters = s.counters := rfl
@[simp] theorem emitRenderSets_inputs (l : List RenderSet) (s : State) :
    (emitRenderSets l s).inputs = s.inputs := rfl
@[simp] theorem emitRenderSets_raised (l : List RenderSet) (s : State) :
    (emitRenderSets l s).raised = s.raised := rfl

@[simp] theorem noteUpstream_cfg (p : Port) (s : State) : (noteUpstream p s).cfg = s.cfg := by cases p <;> rfl
@[simp] theorem noteUpstream_now (p : Port) (s : State) : (noteUpstream p s).now = s.now := by cases p <;> rfl
@[simp] theorem noteUpstream_timeKnown (p : Port) (s : State) :
    (noteUpstream p s).timeKnown = s.timeKnown := by cases p <;> rfl
@[simp] theorem noteUpstream_pidCounter (p : Port) (s : State) :
    (noteUpstream p s).pidCounter = s.pidCounter := by cases p <;> rfl
@[simp] theorem noteUpstream_drawCount (p : Port) (s : State) :
    (noteUpstream p s).drawCount = s.drawCount := by cases p <;> rfl
@[simp] theorem noteUpstream_frUp (p : Port) (s : State) :
    (noteUpstream p s).frUp = s.frUp := by cases p <;> rfl
@[simp] theorem noteUpstream_frDown (p : Port) (s : State) :
    (noteUpstream p s).frDown = s.frDown := by cases p <;> rfl
@[simp] theorem noteUpstream_txUp (p : Port) (s : State) :
    (noteUpstream p s).txUp = s.txUp := by cases p <;> rfl
@[simp] theorem noteUpstream_txDown (p : Port) (s : State) :
    (noteUpstream p s).txDown = s.txDown := by cases p <;> rfl
@[simp] theorem noteUpstream_senderPort (p : Port) (s : State) :
    (noteUpstream p s).senderPort = s.senderPort := by cases p <;> rfl
@[simp] theorem noteUpstream_cmdr (p : Port) (s : State) :
    (noteUpstream p s).cmdr = s.cmdr := by cases p <;> rfl
@[simp] theorem noteUpstream_touchLevel (p : Port) (s : State) :
    (noteUpstream p s).touchLevel = s.touchLevel := by cases p <;> rfl
@[simp] theorem noteUpstream_counters (p : Port) (s : State) :
    (noteUpstream p s).counters = s.counters := by cases p <;> rfl
@[simp] theorem noteUpstream_inputs (p : Port) (s : State) :
    (noteUpstream p s).inputs = s.inputs := by cases p <;> rfl
@[simp] theorem noteUpstream_out (p : Port) (s : State) : (noteUpstream p s).out = s.out := by cases p <;> rfl
@[simp] theorem noteUpstream_raised (p : Port) (s : State) :
    (noteUpstream p s).raised = s.raised := by cases p <;> rfl

@[simp] theorem beforeExec_cfg (p : Port) (s : State) : (beforeExec p s).cfg = s.cfg := by cases p <;> rfl
@[simp] theorem beforeExec_now (p : Port) (s : State) : (beforeExec p s).now = s.now := by cases p <;> rfl
@[simp] theorem beforeExec_timeKnown (p : Port) (s : State) :
    (beforeExec p s).timeKnown = s.timeKnown := by cases p <;> rfl
@[simp] theorem beforeExec_pidCounter (p : Port) (s : State) :
    (beforeExec p s).pidCounter = s.pidCounter := by cases p <;> rfl
@[simp] theorem beforeExec_drawCount (p : Port) (s : State) :
    (beforeExec p s).drawCount = s.drawCount := by cases p <;> rfl
@[simp] theorem beforeExec_frUp (p : Port) (s : State) : (beforeExec p s).frUp = s.frUp := by cases p <;> rfl
@[simp] theorem beforeExec_frDown (p : Port) (s : State) :
    (beforeExec p s).frDown = s.frDown := by cases p <;> rfl
@[simp] theorem beforeExec_txUp (p : Port) (s : State) : (beforeExec p s).txUp = s.txUp := by cases p <;> rfl
@[simp] theorem beforeExec_txDown (p : Port) (s : State) :
    (beforeExec p s).txDown = s.txDown := by cases p <;> rfl
@[simp] theorem beforeExec_cmdr (p : Port) (s : State) : (beforeExec p s).cmdr = s.cmdr := by cases p <;> rfl
@[simp] theorem beforeExec_touchLevel (p : Port) (s : State) :
    (beforeExec p s).touchLevel = s.touchLevel := by cases p <;> rfl
@[simp] theorem beforeExec_counters (p : Port) (s : State) :
    (beforeExec p s).counters = s.counters := by cases p <;> rfl
@[simp] theorem beforeExec_inputs (p : Port) (s : State) :
    (beforeExec p s).inputs = s.inputs := by cases p <;> rfl
@[simp] theorem beforeExec_out (p : Port) (s : State) : (beforeExec p s).out = s.out := by cases p <;> rfl
@[simp] theorem beforeExec_raised (p : Port) (s : State) :
    (beforeExec p s).raised = s.raised := by cases p <;> rfl

@[simp] theorem framed_cfg (p : Port) (b : Byte) (s : State) : (framed p b s).cfg = s.cfg := by simp [framed]
@[simp] theorem framed_now (p : Port) (b : Byte) (s : State) : (framed p b s).now = s.now := by simp [framed]
@[simp] theorem framed_timeKnown (p : Port) (b : Byte) (s : State) :
    (framed p b s).timeKnown = s.timeKnown := by simp [framed]
@[simp] theorem framed_pidCounter (p : Port) (b : Byte) (s : State) :
    (framed p b s).pidCounter = s.pidCounter := by simp [framed]
@[simp] theorem framed_drawCount (p : Port) (b : Byte) (s : State) :
    (framed p b s).drawCount = s.drawCount := by simp [framed]
@[simp] theorem framed_txUp (p : Port) (b : Byte) (s : State) :
    (framed p b s).txUp = s.txUp := by simp [framed]
@[simp] theorem framed_txDown (p : Port) (b : Byte) (s : State) :
    (framed p b s).txDown = s.txDown := by simp [framed]
@[simp] theorem framed_senderPort (p : Port) (b : Byte) (s : State) :
    (framed p b s).senderPort = s.senderPort := by simp [framed]
@[simp] theorem framed_node (p : Port) (b : Byte) (s : State) :
    (framed p b s).node = s.node := by simp [framed]
@[simp] theorem framed_cmdr (p : Port) (b : Byte) (s : State) :
    (framed p b s).cmdr = s.cmdr := by simp [framed]
@[simp] theorem framed_touchLevel (p : Port) (b : Byte) (s : State) :
    (framed p b s).touchLevel = s.touchLevel := by simp [framed]
@[simp] theorem framed_inputs (p : Port) (b : Byte) (s : State) :
    (framed p b s).inputs = s.inputs := by simp [framed]
@[simp] theorem framed_out (p : Port) (b : Byte) (s : State) : (framed p b s).out = s.out := by simp [framed]

@[simp] theorem forwardReceived_cfg (p : Port) (b : Byte) (s : State) :
    (forwardReceived p b s).cfg = s.cfg := by
  unfold forwardReceived; split <;> simp
@[simp] theorem forwardReceived_now (p : Port) (b : Byte) (s : State) :
    (forwardReceived p b s).now = s.now := by
  unfold forwardReceived; split <;> simp
@[simp] theorem forwardReceived_timeKnown (p : Port) (b : Byte) (s : State) :
    (forwardReceived p b s).timeKnown = s.timeKnown := by
  unfold forwardReceived; split <;> simp
@[simp] theorem forwardReceived_pidCounter (p : Port) (b : Byte) (s : State) :
    (forwardReceived p b s).pidCounter = s.pidCounter := by
  unfold forwardReceived; split <;> simp
@[simp] theorem forwardReceived_drawCount (p : Port) (b : Byte) (s : State) :
    (forwardReceived p b s).drawCount = s.drawCount := by
  unfold forwardReceived; split <;> simp
@[simp] theorem forwardReceived_frUp (p : Port) (b : Byte) (s : State) :
    (forwardReceived p b s).frUp = s.frUp := by
  unfold forwardReceived; split <;> simp
@[simp] theorem forwardReceived_frDown (p : Port) (b : Byte) (s : State) :
    (forwardReceived p b s).frDown = s.frDown := by
  unfold forwardReceived; split <;> simp
@[simp] theorem forwardReceived_senderPort (p : Port) (b : Byte) (s : State) :
    (forwardReceived p b s).senderPort = s.senderPort := by
  unfold forwardReceived; split <;> simp
@[simp] theorem forwardReceived_node (p : Port) (b : Byte) (s : State) :
    (forwardReceived p b s).node = s.node := by
  unfold forwardReceived; split <;> simp
@[simp] theorem forwardReceived_cmdr (p : Port) (b : Byte) (s : State) :
    (forwardReceived p b s).cmdr = s.cmdr := by
  unfold forwardReceived; split <;> simp
@[simp] theorem forwardReceived_touchLevel (p : Port) (b : Byte) (s : State) :
    (forwardReceived p b s).touchLevel = s.touchLevel := by
  unfold forwardReceived; split <;> simp
@[simp] theorem forwardReceived_inputs (p : Port) (b : Byte) (s : State) :
    (forwardReceived p b s).inputs = s.inputs := by
  unfold forwardReceived; split <;> simp
@[simp] theorem forwardReceived_out (p : Port) (b : Byte) (s : State) :
    (forwardReceived p b s).out = s.out := by
  unfold forwardReceived; split <;> simp

@[simp] theorem startStep_cfg (s : State) : (startStep s).cfg = s.cfg := rfl
@[simp] theorem startStep_now (s : State) : (startStep s).now = s.now := rfl
@[simp] theorem startStep_timeKnown (s : State) : (startStep s).timeKnown = s.timeKnown := rfl
@[simp] theorem startStep_pidCounter (s : State) : (startStep s).pidCounter = s.pidCounter := rfl
@[simp] theorem startStep_drawCount (s : State) : (startStep s).drawCount = s.drawCount := rfl
@[simp] theorem startStep_frUp (s : State) : (startStep s).frUp = s.frUp := rfl
@[simp] theorem startStep_frDown (s : State) : (startStep s).frDown = s.frDown := rfl
@[simp] theorem startStep_txUp (s : State) : (startStep s).txUp = s.txUp := rfl
@[simp] theorem startStep_txDown (s : State) : (startStep s).txDown = s.txDown := rfl
@[simp] theorem startStep_senderPort (s : State) : (startStep s).senderPort = s.senderPort := rfl
@[simp] theorem startStep_node (s : State) : (startStep s).node = s.node := rfl
@[simp] theorem startStep_cmdr (s : State) : (startStep s).cmdr = s.cmdr := rfl
@[simp] theorem startStep_touchLevel (s : State) : (startStep s).touchLevel = s.touchLevel := rfl
@[simp] theorem startStep_counters (s : State) : (startStep s).counters = s.counters := rfl
@[simp] theorem startStep_inputs (s : State) : (startStep s).inputs = s.inputs := rfl

@[simp] theorem beginEvent_cfg (s : State) : (beginEvent s).cfg = s.cfg := rfl
@[simp] theorem beginEvent_now (s : State) : (beginEvent s).now = s.now := rfl
@[simp] theorem beginEvent_timeKnown (s : State) : (beginEvent s).timeKnown = s.timeKnown := rfl
@[simp] theorem beginEvent_pidCounter (s : State) : (beginEvent s).pidCounter = s.pidCounter := rfl
@[simp] theorem beginEvent_drawCount (s : State) : (beginEvent s).drawCount = s.drawCount := rfl
@[simp] theorem beginEvent_frUp (s : State) : (beginEvent s).frUp = s.frUp := rfl
@[simp] theorem beginEvent_frDown (s : State) : (beginEvent s).frDown = s.frDown := rfl
@[simp] theorem beginEvent_txUp (s : State) : (beginEvent s).txUp = s.txUp := rfl
@[simp] theorem beginEvent_txDown (s : State) : (beginEvent s).txDown = s.txDown := rfl
@[simp] theorem beginEvent_senderPort (s : State) : (beginEvent s).senderPort = s.senderPort := rfl
@[simp] theorem beginEvent_node (s : State) : (beginEvent s).node = s.node := rfl
@[simp] theorem beginEvent_cmdr (s : State) : (beginEvent s).cmdr = s.cmdr := rfl
@[simp] theorem beginEvent_touchLevel (s : State) : (beginEvent s).touchLevel = s.touchLevel := rfl
@[simp] theorem beginEvent_counters (s : State) : (beginEvent s).counters = s.counters := rfl
@[simp] theorem beginEvent_inputs (s : State) : (beginEvent s).inputs = s.inputs.tail := rfl
@[simp] theorem beginEvent_out (s : State) : (beginEvent s).out = [] := rfl
@[simp] theorem beginEvent_raised (s : State) : (beginEvent s).raised = [] := rfl
@[simp] theorem beginEvent_txq (s : State) (p : Port) : (beginEvent s).txq p = s.txq p := by cases p <;> rfl
@[simp] theorem beginEvent_framer (s : State) (p : Port) : (beginEvent s).framer p = s.framer p := by
  cases p <;> rfl

@[simp] theorem takeTime_cfg (t : U32) (s : State) : (takeTime t s).cfg = s.cfg := rfl
@[simp] theorem takeTime_pidCounter (t : U32) (s : State) : (takeTime t s).pidCounter = s.pidCounter := rfl
@[simp] theorem takeTime_drawCount (t : U32) (s : State) : (takeTime t s).drawCount = s.drawCount := rfl
@[simp] theorem takeTime_frUp (t : U32) (s : State) : (takeTime t s).frUp = s.frUp := rfl
@[simp] theorem takeTime_frDown (t : U32) (s : State) : (takeTime t s).frDown = s.frDown := rfl
@[simp] theorem takeTime_txUp (t : U32) (s : State) : (takeTime t s).txUp = s.txUp := rfl
@[simp] theorem takeTime_txDown (t : U32) (s : State) : (takeTime t s).txDown = s.txDown := rfl
@[simp] theorem takeTime_senderPort (t : U32) (s : State) : (takeTime t s).senderPort = s.senderPort := rfl
@[simp] theorem takeTime_node (t : U32) (s : State) : (takeTime t s).node = s.node := rfl
@[simp] theorem takeTime_cmdr (t : U32) (s : State) : (takeTime t s).cmdr = s.cmdr := rfl
@[simp] theorem takeTime_touchLevel (t : U32) (s : State) : (takeTime t s).touchLevel = s.touchLevel := rfl
@[simp] theorem takeTime_counters (t : U32) (s : State) : (takeTime t s).counters = s.counters := rfl
@[simp] theorem takeTime_inputs (t : U32) (s : State) : (takeTime t s).inputs = s.inputs := rfl
@[simp] theorem takeTime_out (t : U32) (s : State) : (takeTime t s).out = s.out := rfl
@[simp] theorem takeTime_raised (t : U32) (s : State) : (takeTime t s).raised = s.raised := rfl
@[simp] theorem takeTime_now (t : U32) (s : State) : (takeTime t s).now = t := rfl
@[simp] theorem takeTime_timeKnown (t : U32) (s : State) : (takeTime t s).timeKnown = true := rfl

@[simp] theorem framed_framer_same (p : Port) (b : Byte) (s : State) :
    (framed p b s).framer p = (framerStep s.cfg (s.framer p) b).framer := by
  unfold framed raiseOption; cases p <;> split <;> simp [State.framer, State.setFramer]

@[simp] theorem framed_framer_other (p : Port) (b : Byte) (s : State) :
    (framed p b s).framer p.other = s.framer p.other := by
  unfold framed raiseOption; cases p <;> split <;> simp [State.framer, State.setFramer, Port.other]

@[simp] theorem framed_txq (p q : Port) (b : Byte) (s : State) : (framed p b s).txq q = s.txq q := by
  cases q <;> simp [State.txq]

@[simp] theorem forwardReceived_framer (p q : Port) (b : Byte) (s : State) :
    (forwardReceived p b s).framer q = s.framer q := by cases q <;> simp [State.framer]

@[simp] theorem beforeExec_framer (p q : Port) (s : State) :
    (beforeExec p s).framer q = s.framer q := by cases q <;> simp [State.framer]

@[simp] theorem beforeExec_txq (p q : Port) (s : State) : (beforeExec p s).txq q = s.txq q := by
  cases q <;> simp [State.txq]

end Sys2Proof.Machine
end

