-- ==== Sys2Proof/Laws/Ops.lean ====
section
/-! SUPPORT. One lemma per shared operation that says once everything it can do: sending, forwarding, the
framer's step, reception, and a whole step. Provers cite these instead of unfolding the operation. -/

namespace Sys2Proof.Machine

open Sys2Proof Host

/-! ## Transmitting -/

/-- `send` (R88): the frame is appended where it fits; otherwise only the event and its counter. -/
theorem send_cases (p : Port) (pkt : Packet) (s : State) :
    ((s.txq p).length + (encodePacket s.cfg pkt).length ≤ s.cfg.txFifoDepth ∧
        send p pkt s = s.setTxq p (s.txq p ++ encodePacket s.cfg pkt)) ∨
      (s.cfg.txFifoDepth < (s.txq p).length + (encodePacket s.cfg pkt).length ∧
        send p pkt s = raise (.txOverflow p) s) := by
  unfold send; split
  · exact .inl ⟨by assumption, rfl⟩
  · exact .inr ⟨by omega, rfl⟩

/-- `send` with room for the frame. -/
theorem send_of_room {p : Port} {pkt : Packet} {s : State}
    (h : (s.txq p).length + (encodePacket s.cfg pkt).length ≤ s.cfg.txFifoDepth) :
    send p pkt s = s.setTxq p (s.txq p ++ encodePacket s.cfg pkt) := if_pos h

/-- `forward` (R89). -/
theorem forward_cases (p : Port) (b : Byte) (s : State) :
    ((s.txq p).length < s.cfg.txFifoDepth ∧ forward p b s = s.setTxq p (s.txq p ++ [b])) ∨
      (s.cfg.txFifoDepth ≤ (s.txq p).length ∧ forward p b s = raise (.txOverflow p) s) := by
  unfold forward; split
  · exact .inl ⟨by assumption, rfl⟩
  · exact .inr ⟨by omega, rfl⟩

/-- `send` keeps the FIFOs' bound. -/
theorem send_fifoInv (p : Port) (pkt : Packet) {s : State} (h : FifoInv s) : FifoInv (send p pkt s) := by
  obtain ⟨hu, hd⟩ := h
  obtain ⟨hr, he⟩ | ⟨-, he⟩ := send_cases p pkt s
  · rw [he]; cases p <;> simp_all [FifoInv, State.setTxq, State.txq]
  · rw [he]; exact ⟨hu, hd⟩

/-- `forward` keeps the FIFOs' bound. -/
theorem forward_fifoInv (p : Port) (b : Byte) {s : State} (h : FifoInv s) : FifoInv (forward p b s) := by
  obtain ⟨hu, hd⟩ := h
  obtain ⟨hr, he⟩ | ⟨-, he⟩ := forward_cases p b s
  · rw [he]; cases p <;> simp_all [FifoInv, State.setTxq, State.txq]
  · rw [he]; exact ⟨hu, hd⟩

/-- An originated packet is sent with the fresh id (R197). -/
theorem originate_eq (p : Port) (o d h : Byte) (ack : Bool) (n : CmdName) (data : List Byte) (s : State) :
    originate p o d h ack n data s =
      send p ⟨⟨(freshPid s).1, o, d, h, ack, data⟩, s.cfg.codes.code n⟩ (freshPid s).2 := rfl

/-- `fresh_pid` under P1 (R197). -/
theorem freshPid_p1 {s : State} (h : s.cfg.profile = .p1) :
    freshPid s = (s.pidCounter, { s with pidCounter := s.pidCounter + 1 }) := by
  unfold freshPid; rw [h]

/-- `fresh_pid` under P2 (R197). -/
theorem freshPid_p2 {s : State} (h : s.cfg.profile = .p2) :
    freshPid s =
      (Config.packetIdDraw s.cfg.drawSource s.drawCount, { s with drawCount := s.drawCount + 1 }) := by
  unfold freshPid; rw [h]

@[simp] theorem freshPid_fifoInv (s : State) : FifoInv (freshPid s).2 ↔ FifoInv s := by
  simp [FifoInv]

/-- An originated packet keeps the FIFOs' bound. -/
theorem originate_fifoInv (p : Port) (o d h : Byte) (ack : Bool) (n : CmdName) (data : List Byte)
    {s : State} (hs : FifoInv s) : FifoInv (originate p o d h ack n data s) :=
  send_fifoInv p _ ((freshPid_fifoInv s).2 hs)

/-- The ACK rule keeps the FIFOs' bound. -/
theorem ackIfRequested_fifoInv (n : CmdName) (p : Body) {s : State} (h : FifoInv s) :
    FifoInv (ackIfRequested n p s) := by
  unfold ackIfRequested; split
  · exact originate_fifoInv _ _ _ _ _ _ _ h
  · exact h

/-! ## The framer -/

/-- What one framer step can do (R152): the start pattern begins a capture, HUNT only slides, a full
capture is dropped, a capture completes, or it grows. -/
theorem framerStep_cases (cfg : Config) (f : Framer) (b : Byte) :
    ((f.slide b).atStart cfg = true ∧
        framerStep cfg f b = ⟨{ f.slide b with fstate := .capture, cap := [] },
          if f.fstate = .capture then some .frameRestarted else none, none⟩) ∨
      ((f.slide b).atStart cfg = false ∧ f.fstate = .hunt ∧
        framerStep cfg f b = ⟨f.slide b, none, none⟩) ∨
      ((f.slide b).atStart cfg = false ∧ f.fstate = .capture ∧ f.cap.length = capMax cfg ∧
        framerStep cfg f b =
          ⟨{ f.slide b with fstate := .hunt, cap := [] }, some .captureOverflow, none⟩) ∨
      ((f.slide b).atStart cfg = false ∧ f.fstate = .capture ∧ f.cap.length ≠ capMax cfg ∧
        ∃ c, completedFrame cfg (f.slide b).win (f.cap ++ [b]) = some c ∧
          framerStep cfg f b = ⟨{ f.slide b with fstate := .hunt, cap := [] }, none, some c⟩) ∨
      ((f.slide b).atStart cfg = false ∧ f.fstate = .capture ∧ f.cap.length ≠ capMax cfg ∧
        completedFrame cfg (f.slide b).win (f.cap ++ [b]) = none ∧
        framerStep cfg f b = ⟨{ f.slide b with cap := f.cap ++ [b] }, none, none⟩) := by
  cases hs : (f.slide b).atStart cfg with
  | true => exact .inl ⟨rfl, by simp [framerStep, hs]⟩
  | false =>
    cases hf : f.fstate with
    | hunt => exact .inr (.inl ⟨rfl, rfl, by simp [framerStep, hs, hf]⟩)
    | capture =>
      by_cases hc : f.cap.length = capMax cfg
      · exact .inr (.inr (.inl ⟨rfl, rfl, hc, by simp [framerStep, hs, hf, hc]⟩))
      · cases hd : completedFrame cfg (f.slide b).win (f.cap ++ [b]) with
        | some c => exact .inr (.inr (.inr (.inl ⟨rfl, rfl, hc, c, rfl, by simp [framerStep, hs, hf, hc, hd]⟩)))
        | none => exact .inr (.inr (.inr (.inr ⟨rfl, rfl, hc, rfl, by simp [framerStep, hs, hf, hc, hd]⟩)))

/-- Every framer step slides the window (R153). -/
theorem framerStep_window (cfg : Config) (f : Framer) (b : Byte) :
    (framerStep cfg f b).framer.win = f.win.slide b ∧
      (framerStep cfg f b).framer.winCount = min (f.winCount + 1) 4 := by
  obtain ⟨-, h⟩ | ⟨-, -, h⟩ | ⟨-, -, -, h⟩ | ⟨-, -, -, c, -, h⟩ | ⟨-, -, -, -, h⟩ := framerStep_cases cfg f b <;>
    simp [h, Framer.slide]

/-- Completion by length (R156), with the header's length written out. -/
theorem completedFrame_p1 {cfg : Config} (h : cfg.profile = .p1) (win : Pattern) (cap : List Byte) :
    completedFrame cfg win cap =
      if 9 ≤ cap.length ∧ cap.length = 9 + (cap.getD 8 0).toNat then some cap else none := by
  unfold completedFrame; rw [h]; rfl

/-- Completion by the end pattern (R157). -/
theorem completedFrame_p2 {cfg : Config} (h : cfg.profile = .p2) (win : Pattern) (cap : List Byte) :
    completedFrame cfg win cap =
      if win = cfg.syncP2.reverse ∧ 4 ≤ cap.length then some (cap.take (cap.length - 4)) else none := by
  unfold completedFrame; rw [h]; rfl

/-- Feeding two sequences one after the other. -/
theorem feed_append (cfg : Config) (f : Framer) (xs ys : List Byte) :
    feed cfg f (xs ++ ys) =
      ((feed cfg (feed cfg f xs).1 ys).1, (feed cfg f xs).2 ++ (feed cfg (feed cfg f xs).1 ys).2) := by
  induction xs generalizing f with
  | nil => simp [feed]
  | cons x xs ih => simp [feed, ih]

/-! ## A packet at an agent -/

/-- What the rule of an instruction does at a node, apart from the shared checks (R260). -/
def nodeRule : Instr → State → Executed
  | .reset _ => nodeReset
  | .assignAddress p => nodeAssignAddress p
  | .enablePropagation _ => nodeEnablePropagation
  | .setChainLength p => nodeSetChainLength p
  | .startBusMode _ => nodeStartBusMode
  | .endBusMode _ => nodeEndBusMode
  | .announce _ => nodeAnnounce
  | .probe p => nodeProbe p
  | .probeResponse p => nodeProbeResponse p
  | .terminatorAnnounce p => nodeTerminatorAnnounce p
  | .ack _ => nodeIgnores
  | .panic _ => nodeIgnores
  | .readyStatus _ => nodeIgnores
  | .touchState _ => nodeIgnores
  | .setBrightness p => renderOne (.brightness (payloadByte p 0))
  | .setDisplayColors p => frozen [.displayColorA (payloadRgb p 0), .displayColorB (payloadRgb p 3)]
  | .setBackgroundColors p => frozen [.backgroundColorA (payloadRgb p 0), .backgroundColorB (payloadRgb p 3)]
  | .setBacklight p => frozen [.backlightColor (payloadRgb p 0), .backlightBrightness (payloadByte p 3)]
  | .setGradient p => frozen [.displayGradient (payloadByte p 0), .backgroundGradient (payloadByte p 1)]
  | .setTransitionType p => renderOne (.transitionType (payloadByte p 0))
  | .setTransitionDuration p => renderOne (.transitionDuration (payloadWord p 0))
  | .setTransitionInterpolation p => renderOne (.transitionInterpolation (payloadByte p 0))
  | .setFrameBlending p => renderOne (.frameBlending (payloadByte p 0))
  | .setCharacter p => frozen [.glyph (payloadByte p 0)]
  | .showCmd _ => nodeShow
  | .touchRead p => nodeTouchRead p
  | .calibrateTouch p => nodeCalibrateTouch p
  | .saveConfig _ => nodeSaveConfig

/-- What an instruction does at the commander, apart from the shared checks (R339). -/
def commanderRule : Instr → State → State
  | .announce _ => commanderAnnounce
  | .probeResponse p => ringAck (payloadWord p 0)
  | .terminatorAnnounce p => commanderTerminatorAnnounce p
  | .ack p => ringAck (payloadWord p 0)
  | .panic p => commanderPanic p
  | .readyStatus p => emit (.hostReady p.origin)
  | .touchState p => commanderTouchState p
  | _ => commanderIgnores

/-- Every instruction is its rule behind the checks that all share. -/
theorem exec_eq_receive (i : Instr) (s : State) :
    exec i s = .next (receive i.name i.body (nodeRule i) (commanderRule i) s) := by
  cases i <;> rfl

/-- What a packet at a node can do (R260): nothing, SHORT_PAYLOAD, or its rule, after which an executed
command of CLASS_CMD meets the ACK rule. -/
theorem nodeReceive_cases (n : CmdName) (p : Body) (rule : State → Executed) (s : State) :
    nodeReceive n p rule s = s ∨ nodeReceive n p rule s = raise (.shortPayload n) s ∨
      ((p.dest = s.node.localAddress ∨ p.dest = addrBroadcast) ∧
        need s.cfg.touchStateLen n ≤ p.data.length ∧ (cmdClass n).port = some s.senderPort ∧
        ((cmdClass n = .cmd ∧ (rule s).ok = true ∧
            nodeReceive n p rule s = ackIfRequested n p (rule s).state) ∨
          (¬(cmdClass n = .cmd ∧ (rule s).ok = true) ∧ nodeReceive n p rule s = (rule s).state))) := by
  unfold nodeReceive
  split
  · exact .inl rfl
  · next h1 =>
    split
    · exact .inr (.inl rfl)
    · next h2 =>
      split
      · exact .inl rfl
      · next h3 =>
        refine .inr (.inr ⟨by simpa [nodeAccepts, or_iff_not_imp_left] using h1,
          by simpa [payloadShort] using h2, by simpa using h3, ?_⟩)
        split
        · next h4 => exact .inl ⟨h4.1, h4.2, rfl⟩
        · next h4 => exact .inr ⟨h4, rfl⟩

/-- A command of CLASS_CMD from UP that passes the checks meets its rule, then the ACK rule unless the rule
refused its operand (R260). -/
theorem exec_fromUp {i : Instr} {s : State} (h : FromUp i.name i.body s) (hc : cmdClass i.name = .cmd) :
    exec i s = .next (if (nodeRule i s).ok then ackIfRequested i.name i.body (nodeRule i s).state
      else (nodeRule i s).state) := by
  obtain ⟨⟨hr, hd, hl⟩, hp⟩ := h
  have h1 : nodeAccepts s i.body = true := by simpa [nodeAccepts] using hd
  have h2 : payloadShort s i.name i.body = false := by simpa [payloadShort] using hl
  rw [exec_eq_receive, receive, hr]
  simp only [nodeReceive, h1, h2, hc, CmdClass.port, hp]
  simp

/-- A message of CLASS_UP_MSG from DOWN that passes the checks meets its rule (R260). -/
theorem exec_fromDown {i : Instr} {s : State} (h : FromDown i.name i.body s)
    (hc : cmdClass i.name = .upMsg) : exec i s = .next (nodeRule i s).state := by
  obtain ⟨⟨hr, hd, hl⟩, hp⟩ := h
  have h1 : nodeAccepts s i.body = true := by simpa [nodeAccepts] using hd
  have h2 : payloadShort s i.name i.body = false := by simpa [payloadShort] using hl
  rw [exec_eq_receive, receive, hr]
  simp only [nodeReceive, h1, h2, hc, CmdClass.port, hp]
  simp

/-- A packet the commander handles meets its rule (R339). -/
theorem exec_atCommander {i : Instr} {s : State} (h : AtCommander i.name i.body s) :
    exec i s = .next (commanderRule i s) := by
  obtain ⟨hr, hd, hl⟩ := h
  have h1 : commanderAccepts i.body = true := by simpa [commanderAccepts] using hd
  have h2 : payloadShort s i.name i.body = false := by simpa [payloadShort] using hl
  rw [exec_eq_receive, receive, hr]
  simp [commanderReceive, h1, h2]

/-- What a packet at an agent can do. -/
theorem exec_cases {i : Instr} {s t : State} (h : exec i s = .next t) :
    t = s ∨ t = raise (.shortPayload i.name) s ∨
      (s.cfg.role = .node ∧ (i.body.dest = s.node.localAddress ∨ i.body.dest = addrBroadcast) ∧
        need s.cfg.touchStateLen i.name ≤ i.body.data.length ∧
        (cmdClass i.name).port = some s.senderPort ∧
        ((cmdClass i.name = .cmd ∧ (nodeRule i s).ok = true ∧
            t = ackIfRequested i.name i.body (nodeRule i s).state) ∨
          (¬(cmdClass i.name = .cmd ∧ (nodeRule i s).ok = true) ∧ t = (nodeRule i s).state))) ∨
      (s.cfg.role = .commander ∧ t = commanderRule i s) := by
  rw [exec_eq_receive, Outcome.next.injEq] at h
  subst h
  cases hr : s.cfg.role with
  | node =>
    simp only [receive, hr]
    obtain h | h | h := nodeReceive_cases i.name i.body (nodeRule i) s
    · exact .inl h
    · exact .inr (.inl h)
    · obtain ⟨a, b, c, d⟩ := h
      exact .inr (.inr (.inl ⟨by simp, a, b, c, d⟩))
  | commander =>
    simp only [receive, hr, commanderReceive]
    split
    · exact .inl rfl
    · split
      · exact .inr (.inl rfl)
      · exact .inr (.inr (.inr ⟨by simp, rfl⟩))

/-! ## A whole step -/

/-- Everything a step that answers a next state can do (R364, R365, R150, R151), with the conditions under
which it does it. `s1` is the state with the head event taken and the last step's events cleared. -/
inductive StepCase (s : State) : State → Prop
  | idle : s.inputs = [] → StepCase s (startStep s)
  | dropped (p : Port) (b : Byte) : nextByte s = some (p, b) → rxBlocked p s = true →
      StepCase s (raise (.rxDropped p) (beginEvent s))
  | busDiscard (b : Byte) : nextByte s = some (.down, b) → s.cfg.role = .node → s.node.busMode = true →
      rxBlocked .down s = false → StepCase s (beginEvent s)
  | captured (p : Port) (b : Byte) (s1 : State) : nextByte s = some (p, b) → framesByte s p = true →
      nextInstr s = none →
      (s.cfg.role = .node ∧ s1 = forwardReceived p b (beginEvent s) ∨
        s.cfg.role = .commander ∧ p = .down ∧ s1 = beginEvent s) →
      StepCase s (framed p b s1)
  | badFrame (p : Port) (b : Byte) (s1 : State) (r : DropReason) : nextByte s = some (p, b) →
      framesByte s p = true → nextInstr s = none →
      (s.cfg.role = .node ∧ s1 = forwardReceived p b (beginEvent s) ∨
        s.cfg.role = .commander ∧ p = .down ∧ s1 = beginEvent s) →
      StepCase s (raise (dropEvent r p) (framed p b s1))
  | unknownCode (p : Port) (b : Byte) (s1 : State) : nextByte s = some (p, b) →
      framesByte s p = true → nextInstr s = none →
      (s.cfg.role = .node ∧ s1 = forwardReceived p b (beginEvent s) ∨
        s.cfg.role = .commander ∧ p = .down ∧ s1 = beginEvent s) →
      StepCase s (noteUpstream p (framed p b s1))
  | instr (p : Port) (b : Byte) (i : Instr) (t : State) : nextByte s = some (p, b) →
      framesByte s p = true → nextInstr s = some (p, i) → exec i (arrival p b s) = .next t → StepCase s t
  | txDone (p : Port) (b : Byte) (q : List Byte) (rest : List Event) : s.inputs = .txDone p :: rest →
      s.txq p = b :: q → (s.cfg.role = .commander → p = .down) →
      StepCase s (emit (.transmitted p b) ((beginEvent s).setTxq p q))
  | nodeTick (t : U32) (rest : List Event) : s.inputs = .tick t :: rest → timeDutyBroken t s = false →
      s.cfg.role = .node → StepCase s (Machine.nodeTick (takeTime t (beginEvent s)))
  | commanderTick (t : U32) (rest : List Event) : s.inputs = .tick t :: rest →
      timeDutyBroken t s = false → s.cfg.role = .commander →
      StepCase s (Machine.commanderTick (takeTime t (beginEvent s)))
  | completion (rest : List Event) : s.inputs = .transitionComplete :: rest → s.cfg.role = .node →
      StepCase s (nodeTransitionComplete (beginEvent s))
  | panicRequest (h : Byte) (rest : List Event) : s.inputs = .panicRequest h :: rest →
      s.cfg.role = .node → StepCase s (nodePanicRequest h (beginEvent s))
  | hostCall (op : HostOp) (rest : List Event) (t : State) : s.inputs = .hostCall op :: rest →
      s.cfg.role = .commander → Machine.hostCall op (beginEvent s) = .next t →
      StepCase s t
  | externalReset (now : U32) (rest : List Event) : s.inputs = .externalReset now :: rest →
      StepCase s (Machine.externalReset now (beginEvent s))
  | touchLevel (l : List Byte) (rest : List Event) : s.inputs = .touchLevel l :: rest →
      l.length = s.cfg.touchStateLen → StepCase s { beginEvent s with touchLevel := l }

/-- `rx_byte` at a node (R364). -/
theorem handleEvent_rxByte_node {s : State} (p : Port) (b : Byte) (h : s.cfg.role = .node) :
    handleEvent (.rxByte p b) s = nodeRx p b s := by
  unfold handleEvent; rw [h]

/-- `rx_byte` at the commander (R364). -/
theorem handleEvent_rxByte_commander {s : State} (b : Byte) (h : s.cfg.role = .commander) :
    handleEvent (.rxByte .down b) s = commanderRx b s := by
  unfold handleEvent; rw [h]

/-- `tx_done` on a port the agent has (R364). -/
theorem handleEvent_txDone {s : State} (p : Port) (h : s.cfg.role = .commander → p = .down) :
    handleEvent (.txDone p) s = txDone p s := by
  unfold handleEvent
  cases hr : s.cfg.role with
  | node => rfl
  | commander => rw [h hr]

/-- What the next step executes, for a byte that is framed. -/
theorem nextInstr_eq {s : State} {p : Port} {b : Byte} (hb : nextByte s = some (p, b))
    (hf : framesByte s p = true) {c : List Byte} (hc : (framerStep s.cfg (s.framer p) b).frame = some c) :
    nextInstr s = match decode s.cfg c with
      | .instr i => some (p, i)
      | _ => none := by
  unfold nextInstr
  simp only [hb, hf, hc]
  rfl

/-- The reception of a byte that is framed, as one of the cases. -/
theorem acceptByte_cases {s s1 t : State} {p : Port} {b : Byte} (hb : nextByte s = some (p, b))
    (hf : framesByte s p = true) (hfr : s1.framer p = s.framer p) (hc : s1.cfg = s.cfg)
    (h1 : s.cfg.role = .node ∧ s1 = forwardReceived p b (beginEvent s) ∨
      s.cfg.role = .commander ∧ p = .down ∧ s1 = beginEvent s)
    (h : acceptByte p b s1 = .next t) : StepCase s t := by
  have harr : arrival p b s = beforeExec p (framed p b s1) := by
    rcases h1 with ⟨hr, rfl⟩ | ⟨hr, -, rfl⟩ <;> simp [arrival, hr]
  unfold acceptByte at h
  rw [hfr, hc] at h
  cases hfm : (framerStep s.cfg (s.framer p) b).frame with
  | none =>
    rw [hfm] at h
    obtain rfl : framed p b s1 = t := by simpa using h
    exact .captured p b s1 hb hf (by unfold nextInstr; simp [hb, hf, hfm]) h1
  | some c =>
    have hni := nextInstr_eq hb hf hfm
    rw [hfm] at h
    simp only [runFrame, framed_cfg, hc] at h
    cases hd : decode s.cfg c with
    | instr i =>
      rw [hd] at h; simp only [hd] at hni
      exact .instr p b i t hb hf hni (by rw [harr]; exact h)
    | unknown pk =>
      rw [hd] at h; simp only [hd] at hni
      obtain rfl : noteUpstream p (framed p b s1) = t := by simpa using h
      exact .unknownCode p b s1 hb hf hni h1
    | dropped r =>
      rw [hd] at h; simp only [hd] at hni
      obtain rfl : raise (dropEvent r p) (framed p b s1) = t := by simpa using h
      exact .badFrame p b s1 r hb hf hni h1

/-- Every step that answers a next state is one of the cases. -/
theorem step_cases {s t : State} (h : step s = .next t) : StepCase s t := by
  unfold step stepEvent at h
  cases hi : s.inputs with
  | nil =>
    rw [hi] at h
    obtain rfl : startStep s = t := by simpa using h
    exact .idle hi
  | cons e rest =>
    rw [hi] at h
    simp only at h
    cases e with
    | rxByte p b =>
      have hb : nextByte s = some (p, b) := by simp [nextByte, hi]
      cases hr : s.cfg.role with
      | node =>
        rw [handleEvent_rxByte_node p b (by exact hr)] at h
        unfold nodeRx at h
        cases hx : rxBlocked p s with
        | true =>
          rw [if_pos (by exact hx)] at h
          obtain rfl : raise (.rxDropped p) (beginEvent s) = t := by simpa using h
          exact .dropped p b hb hx
        | false =>
          rw [if_neg (by rw [show rxBlocked p (beginEvent s) = false from hx]; simp)] at h
          by_cases hm : s.node.busMode = true ∧ p = .down
          · rw [if_pos (by exact hm)] at h
            obtain rfl : beginEvent s = t := by simpa using h
            obtain ⟨hm, rfl⟩ := hm
            exact .busDiscard b hb hr hm hx
          · rw [if_neg (by exact hm)] at h
            refine acceptByte_cases hb ?_ ?_ ?_ (.inl ⟨hr, rfl⟩) h
            · simpa [framesByte, hr, hx, ← Bool.not_eq_true, ← not_and_or] using hm
            · cases p <;> simp [State.framer]
            · simp
      | commander =>
        cases p with
        | up => simp [handleEvent, hr] at h
        | down =>
          rw [handleEvent_rxByte_commander b (by exact hr)] at h
          unfold commanderRx at h
          cases hx : rxBlocked .down s with
          | true =>
            rw [if_pos (by exact hx)] at h
            obtain rfl : raise (.rxDropped .down) (beginEvent s) = t := by simpa using h
            exact .dropped .down b hb hx
          | false =>
            rw [if_neg (by rw [show rxBlocked .down (beginEvent s) = false from hx]; simp)] at h
            exact acceptByte_cases (s1 := beginEvent s) hb (by simp [framesByte, hr, hx]) rfl rfl
              (.inr ⟨hr, rfl, rfl⟩) h
    | txDone p =>
      by_cases hp : s.cfg.role = .commander → p = .down
      · rw [handleEvent_txDone p (by exact hp)] at h
        unfold txDone at h
        rw [beginEvent_txq] at h
        cases hq : s.txq p with
        | nil => rw [hq] at h; simp at h
        | cons b q =>
          rw [hq] at h
          simp only [Outcome.next.injEq] at h
          subst h
          exact .txDone p b q rest hi hq hp
      · obtain ⟨hr, hp⟩ := Classical.not_imp.mp hp
        cases p with
        | up => simp [handleEvent, hr] at h
        | down => exact absurd rfl hp
    | tick now =>
      simp only [handleEvent, tick] at h
      have htd : timeDutyBroken now (beginEvent s) = timeDutyBroken now s := rfl
      rw [htd] at h
      cases hd : timeDutyBroken now s with
      | true => simp [hd] at h
      | false =>
        cases hr : s.cfg.role with
        | node =>
          simp only [hd, beginEvent_cfg, hr] at h
          obtain rfl : Machine.nodeTick (takeTime now (beginEvent s)) = t := by
            simpa using h
          exact .nodeTick now rest hi hd hr
        | commander =>
          simp only [hd, beginEvent_cfg, hr] at h
          obtain rfl : Machine.commanderTick (takeTime now (beginEvent s)) = t := by
            simpa using h
          exact .commanderTick now rest hi hd hr
    | transitionComplete =>
      cases hr : s.cfg.role with
      | node =>
        simp only [handleEvent, beginEvent_cfg, hr, Outcome.next.injEq] at h
        subst h; exact .completion rest hi hr
      | commander => simp [handleEvent, hr] at h
    | panicRequest x =>
      cases hr : s.cfg.role with
      | node =>
        simp only [handleEvent, beginEvent_cfg, hr, Outcome.next.injEq] at h
        subst h; exact .panicRequest x rest hi hr
      | commander => simp [handleEvent, hr] at h
    | hostCall op =>
      cases hr : s.cfg.role with
      | node => simp [handleEvent, hr] at h
      | commander =>
        simp only [handleEvent, beginEvent_cfg, hr] at h
        exact .hostCall op rest t hi hr h
    | externalReset now =>
      simp only [handleEvent, Outcome.next.injEq] at h
      subst h; exact .externalReset now rest hi
    | touchLevel l =>
      by_cases hl : l.length = s.cfg.touchStateLen
      · simp only [handleEvent, beginEvent_cfg, hl, if_true, Outcome.next.injEq] at h
        subst h; exact .touchLevel l rest hi hl
      · simp [handleEvent, hl] at h

end Sys2Proof.Machine
end

