-- ==== Sys2Proof/Laws/Commander.lean ====
section
/-! SUPPORT. What the commander's operations do: the ring, the request, the wait, and the procedures, one
lemma each. -/

namespace Sys2Proof.Machine

open Sys2Proof Host

/-! ## Sending -/

/-- A commander's packet under P1 with room: the id is taken and the frame appended, nothing else. -/
theorem commanderSend_p1 {s : State} {pkt : Packet} {d : Byte} {n : CmdName} {data : List Byte} {ack : Bool}
    (hp : s.cfg.profile = .p1)
    (hk : pkt = ⟨⟨s.pidCounter, 253, d, 253, ack, data⟩, s.cfg.codes.code n⟩)
    (hr : s.txDown.length + (encodePacket s.cfg pkt).length ≤ s.cfg.txFifoDepth) :
    commanderSend d n data ack s =
      { s with pidCounter := s.pidCounter + 1, txDown := s.txDown ++ encodePacket s.cfg pkt } := by
  subst hk
  unfold commanderSend
  rw [originate_eq, freshPid_p1 hp, send_of_room (by exact hr)]
  rfl

/-- `request` (R323): the packet is sent, then its id registered and awaited from now. -/
theorem request_eq (d : Byte) (n : CmdName) (data : List Byte) (ack : Bool) (s : State) :
    request d n data ack s =
      { commanderSend d n data ack s with
        cmdr := { s.cmdr with
          ring := (s.cmdr.ring.map (clearPid (freshPid s).1)).set s.cmdr.ringW.val
            ⟨true, (freshPid s).1, false⟩
          ringW := s.cmdr.ringW + 1
          waitPid := (freshPid s).1
          waitStart := s.now } } := by
  simp [request, ringRegister]

@[simp] theorem request_fifoInv (d : Byte) (n : CmdName) (data : List Byte) (ack : Bool) {s : State}
    (h : FifoInv s) : FifoInv (request d n data ack s) := by
  rw [request_eq]
  exact originate_fifoInv .down addrCommander d addrCommander ack n data h

@[simp] theorem announceLength_cmdr (n : Nat) (s : State) :
    (announceLength n s).cmdr = { s.cmdr with chainLength := u8 n } := by simp [announceLength]

/-! ## The ring -/

@[simp] theorem clearPid_pid (pid : U16) (e : RingEntry) : (clearPid pid e).pid = e.pid := by
  unfold clearPid; split <;> rfl

@[simp] theorem ackPid_pid (pid : U16) (e : RingEntry) : (ackPid pid e).pid = e.pid := by
  unfold ackPid; split <;> rfl

@[simp] theorem ackPid_valid (pid : U16) (e : RingEntry) : (ackPid pid e).valid = e.valid := by
  unfold ackPid; split <;> rfl

/-- After a registration the entry before `ring_w` is the new one (R321). -/
theorem ring_newest {ring : List RingEntry} {w : Fin 8} (e : RingEntry) (h : ring.length = 8) :
    (ring.set w.val e)[(w + 1 - 1).val]? = some e := by
  rw [show w + 1 - 1 = w by omega, List.getElem?_set_self (by have := w.isLt; omega)]

/-! ## The wait -/

/-- A valid, acknowledged entry of the awaited pid ends the wait with success (R323). -/
theorem waitResult_success {s : State} {e : RingEntry} (he : e ∈ s.cmdr.ring) (hv : e.valid = true)
    (hp : e.pid = s.cmdr.waitPid) (ha : e.acked = true) : waitResult s = .success := by
  unfold waitResult
  rw [if_pos (List.any_eq_true.mpr ⟨e, he, by simp [answers, hv, hp, ha]⟩)]

/-- Without such an entry the wait fails exactly at its deadline (R323). -/
theorem waitResult_of_unanswered {s : State}
    (h : ∀ e ∈ s.cmdr.ring, e.valid = true → e.pid = s.cmdr.waitPid → e.acked = false) :
    waitResult s =
      if s.cfg.ackTimeoutMs.toNat ≤ (s.now - s.cmdr.waitStart).toNat then .failure else .pending := by
  unfold waitResult
  rw [if_neg]
  · rfl
  · intro hc
    obtain ⟨e, he, ha⟩ := List.any_eq_true.mp hc
    simp only [answers, Bool.and_eq_true, decide_eq_true_eq] at ha
    have := h e he ha.1.1 ha.1.2
    rw [ha.2] at this
    exact Bool.noConfusion this

/-- The wait's result, by whether its answer is in the ring and its deadline has passed (R323). -/
theorem waitResult_cases (s : State) :
    (Answered s ∧ waitResult s = .success) ∨ (TimedOut s s.now ∧ waitResult s = .failure) ∨
      (StillWaiting s s.now ∧ waitResult s = .pending) := by
  by_cases ha : Answered s
  · obtain ⟨e, he, hv, hp, hk⟩ := ha
    exact .inl ⟨⟨e, he, hv, hp, hk⟩, waitResult_success he hv hp hk⟩
  · have hw := waitResult_of_unanswered (s := s) fun e he hv hp => by
      cases hk : e.acked
      · rfl
      · exact absurd ⟨e, he, hv, hp, hk⟩ ha
    by_cases hd : s.cfg.ackTimeoutMs.toNat ≤ (s.now - s.cmdr.waitStart).toNat
    · exact .inr (.inl ⟨⟨ha, hd⟩, by rw [hw, if_pos hd]⟩)
    · exact .inr (.inr ⟨⟨ha, Nat.lt_of_not_le hd⟩, by rw [hw, if_neg hd]⟩)

/-- With no procedure running and a panic latched, a recovery starts (R325). -/
theorem recoverIfLatched_cases (s : State) :
    (s.cmdr.proc = .idle ∧ s.cmdr.panicValid = true ∧ recoverIfLatched s = startRecovery s) ∨
      (¬(s.cmdr.proc = .idle ∧ s.cmdr.panicValid = true) ∧ recoverIfLatched s = s) := by
  unfold recoverIfLatched
  by_cases h : s.cmdr.proc = .idle ∧ s.cmdr.panicValid = true
  · exact .inl ⟨h.1, h.2, if_pos h⟩
  · exact .inr ⟨h, if_neg h⟩

/-- What the first part of a commander's tick can do (R325). -/
theorem resolveWait_cases (s : State) :
    (s.cmdr.proc = .idle ∧ resolveWait s = s) ∨
      (s.cmdr.proc ≠ .idle ∧ waitResult s = .pending ∧ resolveWait s = s) ∨
      (s.cmdr.proc ≠ .idle ∧ waitResult s = .success ∧ resolveWait s = continueProc .success s) ∨
      (s.cmdr.proc ≠ .idle ∧ waitResult s = .failure ∧
        resolveWait s = continueProc .failure (raise (.ackTimeout s.cmdr.waitPid) s)) := by
  unfold resolveWait
  by_cases hp : s.cmdr.proc = .idle
  · exact .inl ⟨hp, if_pos hp⟩
  · rw [if_neg hp]
    cases hw : waitResult s with
    | pending => exact .inr (.inl ⟨hp, rfl, rfl⟩)
    | success => exact .inr (.inr (.inl ⟨hp, rfl, rfl⟩))
    | failure => exact .inr (.inr (.inr ⟨hp, rfl, rfl⟩))

/-- A commander's tick is the wait's part, and then a recovery if a panic is latched and nothing runs
(R325). -/
theorem commanderTick_cases (s : State) :
    (¬((resolveWait s).cmdr.proc = .idle ∧ (resolveWait s).cmdr.panicValid = true) ∧
        commanderTick s = resolveWait s) ∨
      ((resolveWait s).cmdr.proc = .idle ∧ (resolveWait s).cmdr.panicValid = true ∧
        commanderTick s = startRecovery (resolveWait s)) := by
  unfold commanderTick recoverIfLatched
  by_cases h : (resolveWait s).cmdr.proc = .idle ∧ (resolveWait s).cmdr.panicValid = true
  · exact .inr ⟨h.1, h.2, if_pos h⟩
  · exact .inl ⟨h, if_neg h⟩

/-! ## The procedures -/

/-- `measure_next` either measures the next address or announces the length (R335). -/
theorem measureNext_cases (s : State) :
    (s.cmdr.i = 253 ∧ measureNext s = goIdle (announceLength 253 s)) ∨
      (s.cmdr.i ≠ 253 ∧
        measureNext s = enter .recover .mWait (request (u8 s.cmdr.i) .probe [] false s)) := by
  unfold measureNext measureFinish
  by_cases h : s.cmdr.i = 253
  · exact .inl ⟨h, by rw [if_pos h, h]⟩
  · exact .inr ⟨h, if_neg h⟩

/-- `measure_start` always measures address 0 first (R335). -/
theorem measureStart_eq (s : State) :
    measureStart s = enter .recover .mWait (request 0 .probe [] false (setI 0 s)) := by
  unfold measureStart
  obtain ⟨h, -⟩ | ⟨-, h⟩ := measureNext_cases (setI 0 s)
  · exact absurd h (by show ¬(0 : Nat) = 253; decide)
  · rw [h]; rfl

/-- `start_recovery` consumes the latch, then assigns the next address or measures (R334, R336). -/
theorem startRecovery_cases (s : State) :
    ∃ s1, s1 = { s with cmdr := { s.cmdr with
        panicValid := false, recA := recoveryAddress s.cmdr.panicHop } } ∧
      ((recoveryAddress s.cmdr.panicHop = 253 ∧ startRecovery s = measureStart s1) ∨
        (recoveryAddress s.cmdr.panicHop ≤ 252 ∧
          startRecovery s = enter .recover .raWait
            (request addrNull .assignAddress [u8 (recoveryAddress s.cmdr.panicHop)] (ack1 s.cfg) s1))) := by
  refine ⟨_, rfl, ?_⟩
  have hb : recoveryAddress s.cmdr.panicHop ≤ 253 := by
    unfold recoveryAddress; split
    · omega
    · split <;> omega
  unfold startRecovery
  by_cases h : recoveryAddress s.cmdr.panicHop = 253
  · exact .inl ⟨h, if_pos h⟩
  · exact .inr ⟨by omega, if_neg h⟩

/-- A recovery is under way after `start_recovery`, and nothing has been reported to the host. -/
theorem startRecovery_enters (s : State) :
    (startRecovery s).cmdr.proc = .recover ∧ (startRecovery s).out = s.out ∧
      (startRecovery s).cmdr.panicValid = false ∧
      (startRecovery s).cmdr.panicHop = s.cmdr.panicHop ∧ (startRecovery s).node = s.node := by
  obtain ⟨s1, rfl, ⟨-, h⟩ | ⟨-, h⟩⟩ := startRecovery_cases s
  · rw [h, measureStart_eq]; simp [enter, request_eq, setI]
  · rw [h]; simp [enter, request_eq]

/-- `assign_next` either asks for the next assignment or ends discovery at 253 nodes (R330). -/
theorem assignNext_cases (s : State) :
    (s.cmdr.i = 253 ∧ assignNext s = finishDiscovery 253 true s) ∨
      (s.cmdr.i ≠ 253 ∧ assignNext s =
        enter .discover .aWait (request addrNull .assignAddress [u8 s.cmdr.i] (ack1 s.cfg) s)) := by
  unfold assignNext
  by_cases h : s.cmdr.i = 253
  · exact .inl ⟨h, if_pos h⟩
  · exact .inr ⟨h, if_neg h⟩

/-- The packets of `set_string` change nothing of the commander's own registers (R352). -/
@[simp] theorem sendCharacters_cmdr (k : Nat) (glyphs : List Byte) (s : State) :
    (sendCharacters k glyphs s).cmdr = s.cmdr := by
  induction glyphs generalizing k s with
  | nil => rfl
  | cons g rest ih => rw [sendCharacters, ih]; simp

@[simp] theorem sendCharacters_out (k : Nat) (glyphs : List Byte) (s : State) :
    (sendCharacters k glyphs s).out = s.out := by
  induction glyphs generalizing k s with
  | nil => rfl
  | cons g rest ih => rw [sendCharacters, ih]; simp

@[simp] theorem sendCharacters_cfg (k : Nat) (glyphs : List Byte) (s : State) :
    (sendCharacters k glyphs s).cfg = s.cfg := by
  induction glyphs generalizing k s with
  | nil => rfl
  | cons g rest ih => rw [sendCharacters, ih]; simp

@[simp] theorem sendCharacters_node (k : Nat) (glyphs : List Byte) (s : State) :
    (sendCharacters k glyphs s).node = s.node := by
  induction glyphs generalizing k s with
  | nil => rfl
  | cons g rest ih => rw [sendCharacters, ih]; simp

@[simp] theorem sendCharacters_frUp (k : Nat) (glyphs : List Byte) (s : State) :
    (sendCharacters k glyphs s).frUp = s.frUp := by
  induction glyphs generalizing k s with
  | nil => rfl
  | cons g rest ih => rw [sendCharacters, ih]; simp

@[simp] theorem sendCharacters_frDown (k : Nat) (glyphs : List Byte) (s : State) :
    (sendCharacters k glyphs s).frDown = s.frDown := by
  induction glyphs generalizing k s with
  | nil => rfl
  | cons g rest ih => rw [sendCharacters, ih]; simp

/-- The packets of `set_string` keep the FIFOs' bound. -/
theorem sendCharacters_fifoInv (k : Nat) (glyphs : List Byte) {s : State} (h : FifoInv s) :
    FifoInv (sendCharacters k glyphs s) := by
  induction glyphs generalizing k s with
  | nil => exact h
  | cons g rest ih => exact ih _ (originate_fifoInv .down addrCommander _ addrCommander false _ _ h)

/-- A host call that is one command sends it, if a packet can carry the payload (R338, R352). -/
theorem acceptedHostCall_command {op : HostOp} {d : Byte} {n : CmdName} {data : List Byte} {w : Bool}
    (h : hostCommand op = some (d, n, data, w)) (s : State) :
    acceptedHostCall op s =
      if 255 < data.length then .fault .hostPayloadTooLong else .next (commandCall d n data w s) := by
  unfold acceptedHostCall
  rw [h]
  cases op <;> first | rfl | simp [hostCommand] at h

/-- What an accepted host call can do (R338, R330, R344, R352). -/
theorem hostCall_cases {op : HostOp} {s t : State} (h : hostCall op s = .next t) :
    (s.cmdr.proc ≠ .idle ∧ t = emit (.hostResult (hostOpName op) false) s) ∨
      (s.cmdr.proc = .idle ∧ ∃ d n data w, hostCommand op = some (d, n, data, w) ∧
        data.length ≤ 255 ∧ t = commandCall d n data w s) ∨
      (s.cmdr.proc = .idle ∧ op = .begin ∧ t = beginDiscovery s) ∨
      (s.cmdr.proc = .idle ∧ ∃ str, op = .setString str ∧
        t = emit (.hostResult .setString true)
          (sendCharacters 0 (str.take (min str.length s.cmdr.chainLength.toNat)) s)) := by
  unfold hostCall at h
  by_cases hp : s.cmdr.proc = .idle
  · rw [if_neg (by simpa using hp)] at h
    cases hc : hostCommand op with
    | some q =>
      obtain ⟨d, n, data, w⟩ := q
      refine .inr (.inl ⟨hp, d, n, data, w, rfl, ?_⟩)
      rw [acceptedHostCall_command hc] at h
      by_cases hl : 255 < data.length
      · rw [if_pos hl] at h; simp at h
      · rw [if_neg hl] at h; exact ⟨by omega, by simpa using h.symm⟩
    | none =>
      cases op <;> simp [hostCommand] at hc
      · exact .inr (.inr (.inl ⟨hp, rfl, by simpa [acceptedHostCall, hostCommand] using h.symm⟩))
      · exact .inr (.inr (.inr ⟨hp, _, rfl, by simpa [acceptedHostCall] using h.symm⟩))
  · rw [if_pos hp] at h
    exact .inl ⟨hp, by simpa using h.symm⟩

end Sys2Proof.Machine
end

