-- ==== Sys2Proof/Laws/Node.lean ====
section
/-! SUPPORT. Everything a step can write into a node's registers: one inversion lemma for the instructions
and one for the whole step. -/

namespace Sys2Proof.Machine

open Sys2Proof Host

/-- What an instruction can make of a node's registers (42_chain_protocol.md sections 2 and 3;
43_dispatcher.md R263), with the instruction and the conditions under which it does. -/
inductive NodeWrite (i : Instr) (s : State) : NodeRegs → Prop
  | same : NodeWrite i s s.node
  | reset (p : Body) : i = .reset p → s.senderPort = .up →
      NodeWrite i s { s.node with
        localAddress := 254, chainLength := 0, propagationMode := false, busMode := false,
        chainState := .unassigned, probeArmed := false, lastAnnounce := s.now }
  | assign (p : Body) : i = .assignAddress p → s.senderPort = .up → (p.data.getD 0 0).toNat ≤ 252 →
      NodeWrite i s { s.node with
        localAddress := p.data.getD 0 0, chainState := .assigned, probeArmed := false }
  | enable (p : Body) : i = .enablePropagation p → s.senderPort = .up →
      NodeWrite i s { s.node with propagationMode := true }
  | length (p : Body) : i = .setChainLength p → s.senderPort = .up →
      NodeWrite i s { s.node with chainLength := p.data.getD 0 0 }
  | busOn (p : Body) : i = .startBusMode p → s.senderPort = .up → s.node.propagationMode = true →
      NodeWrite i s { s.node with busMode := true }
  | busOff (p : Body) : i = .endBusMode p → s.senderPort = .up →
      NodeWrite i s { s.node with busMode := false }
  | adopt (p : Body) (a : Byte) : i = .probe p → s.senderPort = .up → p.dest = 255 →
      s.cfg.discoveryMode = .nodeToNode →
      (s.node.chainState = .unassigned ∨ s.node.chainState = .discovering) →
      p.origin ≠ 252 → p.origin ≠ 255 → a.toNat ≤ 252 →
      NodeWrite i s { s.node with
        localAddress := a, chainState := .assigned, probeArmed := true, probeStart := s.now }
  | relay (p : Body) : i = .probeResponse p → s.senderPort = .down →
      s.node.chainState = .assigned → s.node.probeArmed = true →
      p.dest = s.node.localAddress →
      NodeWrite i s { s.node with probeArmed := false, chainState := .relay }
  | terminator (p : Body) : i = .terminatorAnnounce p → s.senderPort = .down →
      s.node.chainState = .relay →
      NodeWrite i s { s.node with propagationMode := true, chainLength := p.data.getD 0 0 }
  | unfreeze : NodeWrite i s { s.node with freeze := false }

/-- An origin that an address is adopted from is neither 252 nor 255 (R227). -/
theorem adoptedAddress_origin {origin a : Byte} (h : adoptedAddress origin = some a) :
    origin ≠ 252 ∧ origin ≠ 255 := by
  constructor <;> rintro rfl <;> simp [adoptedAddress, addrNull, addrCommander] at h

/-- The adopted address is assignable (R227). -/
theorem adoptedAddress_le {origin a : Byte} (h : adoptedAddress origin = some a) : a.toNat ≤ 252 := by
  unfold adoptedAddress at h
  split at h
  · obtain rfl : 0 = a := by simpa using h
    decide
  · split at h
    · next hle =>
      obtain rfl : origin + 1 = a := by simpa using h
      rw [BitVec.le_def] at hle
      rw [BitVec.toNat_add]
      simp at hle ⊢
      omega
    · simp at h

@[simp] theorem answerProbe_node (p : Body) (s : State) : (answerProbe p s).node = s.node := by
  simp [answerProbe]

@[simp] theorem probeDownstream_node (s : State) : (probeDownstream s).node = s.node := by
  simp [probeDownstream]

@[simp] theorem frozen_node (rs : List RenderSet) (s : State) :
    (frozen rs s).state.node = { s.node with freeze := false } := by
  simp [frozen, executed, setFreeze]

@[simp] theorem renderOne_node (r : RenderSet) (s : State) : (renderOne r s).state.node = s.node := by
  simp [renderOne, executed]

/-- The rule of an instruction writes one of the listed things. -/
theorem nodeRule_writes (i : Instr) (s : State)
    (hd : i.body.dest = s.node.localAddress ∨ i.body.dest = addrBroadcast)
    (hp : (cmdClass i.name).port = some s.senderPort) : NodeWrite i s (nodeRule i s).state.node := by
  cases i with
  | reset p => exact .reset p rfl (by simpa [Instr.name, cmdClass, CmdClass.port] using hp.symm)
  | assignAddress p =>
    simp only [nodeRule, nodeAssignAddress]
    split
    · simpa [refusedOperand] using NodeWrite.same
    · next h =>
      refine .assign p rfl (by simpa [Instr.name, cmdClass, CmdClass.port] using hp.symm) ?_
      rw [BitVec.lt_def] at h
      simpa [maxNodeAddress, payloadByte, byteAt] using h
  | enablePropagation p =>
    exact .enable p rfl (by simpa [Instr.name, cmdClass, CmdClass.port] using hp.symm)
  | setChainLength p => exact .length p rfl (by simpa [Instr.name, cmdClass, CmdClass.port] using hp.symm)
  | startBusMode p =>
    simp only [nodeRule, nodeStartBusMode]
    split
    · exact .busOn p rfl (by simpa [Instr.name, cmdClass, CmdClass.port] using hp.symm) (by assumption)
    · exact .same
  | endBusMode p => exact .busOff p rfl (by simpa [Instr.name, cmdClass, CmdClass.port] using hp.symm)
  | announce p =>
    simp only [nodeRule, nodeAnnounce]
    split
    · simpa [executed] using NodeWrite.same
    · exact .same
  | probe p =>
    simp only [nodeRule, nodeProbe]
    split
    · simpa [executed] using NodeWrite.same
    · split
      · next h =>
        split
        · next a ha =>
          simp only [executed, adoptAddress, probeDownstream_node, answerProbe_node]
          exact .adopt p a rfl (by simpa [Instr.name, cmdClass, CmdClass.port] using hp.symm) h.1 h.2.1
            (by simpa [unassignedState] using h.2.2) (adoptedAddress_origin ha).1
            (adoptedAddress_origin ha).2 (adoptedAddress_le ha)
        · simpa [refusedOperand] using NodeWrite.same
      · exact .same
  | probeResponse p =>
    simp only [nodeRule, nodeProbeResponse]
    split
    · next h =>
      have ha : s.node.chainState = .assigned ∧ s.node.probeArmed = true := by simpa [armed] using h.2
      exact .relay p rfl (by simpa [Instr.name, cmdClass, CmdClass.port] using hp.symm) ha.1 ha.2 h.1
    · exact .same
  | terminatorAnnounce p =>
    simp only [nodeRule, nodeTerminatorAnnounce]
    split
    · next h =>
      have hs : s.senderPort = .down := by simpa [Instr.name, cmdClass, CmdClass.port] using hp.symm
      split
      · simp only [executed, nodeSend_node]; exact .terminator p rfl hs h
      · next hpm =>
        have hw := NodeWrite.terminator (s := s) p rfl hs h
        rw [show s.node = { s.node with propagationMode := true } by
          cases hn : s.node; simp_all]
        exact hw
    · exact .same
  | ack p => exact .same
  | panic p => exact .same
  | readyStatus p => exact .same
  | touchState p => exact .same
  | setBrightness p => simpa [nodeRule] using NodeWrite.same
  | setDisplayColors p => simpa [nodeRule] using NodeWrite.unfreeze
  | setBackgroundColors p => simpa [nodeRule] using NodeWrite.unfreeze
  | setBacklight p => simpa [nodeRule] using NodeWrite.unfreeze
  | setGradient p => simpa [nodeRule] using NodeWrite.unfreeze
  | setTransitionType p => simpa [nodeRule] using NodeWrite.same
  | setTransitionDuration p => simpa [nodeRule] using NodeWrite.same
  | setTransitionInterpolation p => simpa [nodeRule] using NodeWrite.same
  | setFrameBlending p => simpa [nodeRule] using NodeWrite.same
  | setCharacter p => simpa [nodeRule] using NodeWrite.unfreeze
  | showCmd p => exact .same
  | touchRead p => simpa [nodeRule, nodeTouchRead, executed] using NodeWrite.same
  | calibrateTouch p => exact .same
  | saveConfig p => exact .same

/-- At the commander no instruction writes a node register. -/
@[simp] theorem commanderRule_node (i : Instr) (s : State) : (commanderRule i s).node = s.node := by
  cases i <;> simp [commanderRule, commanderIgnores, commanderAnnounce, commanderTerminatorAnnounce,
    commanderPanic, commanderTouchState]
  split <;> simp

/-- An executed instruction writes one of the listed things into the node's registers. -/
theorem exec_nodeWrite {i : Instr} {s t : State} (h : exec i s = .next t) : NodeWrite i s t.node := by
  obtain rfl | rfl | ⟨-, hd, -, hp, ⟨-, -, rfl⟩ | ⟨-, rfl⟩⟩ | ⟨-, rfl⟩ := exec_cases h
  · exact .same
  · exact .same
  · simpa using nodeRule_writes i s hd hp
  · exact nodeRule_writes i s hd hp
  · simpa using NodeWrite.same

/-! ## The state in which an instruction is executed -/

/-- The arrival of a byte notes the time of one from upstream (R150, R370). -/
@[simp] theorem arrival_node (p : Port) (b : Byte) (s : State) :
    (arrival p b s).node =
      { s.node with lastUpRx := if p = .up then s.now else s.node.lastUpRx } := by
  unfold arrival; cases s.cfg.role <;> cases p <;> simp [beforeExec, noteUpstream]

@[simp] theorem arrival_senderPort (p : Port) (b : Byte) (s : State) :
    (arrival p b s).senderPort = p := by
  unfold arrival; cases s.cfg.role <;> rfl

@[simp] theorem arrival_cfg (p : Port) (b : Byte) (s : State) : (arrival p b s).cfg = s.cfg := by
  unfold arrival; cases s.cfg.role <;> simp

@[simp] theorem arrival_cmdr (p : Port) (b : Byte) (s : State) : (arrival p b s).cmdr = s.cmdr := by
  unfold arrival; cases s.cfg.role <;> simp

/-! ## The commander's steps write no node register -/

@[simp] theorem measureNext_node (s : State) : (measureNext s).node = s.node := by
  obtain ⟨-, h⟩ | ⟨-, h⟩ := measureNext_cases s <;> rw [h] <;> simp [announceLength]

@[simp] theorem measureStart_node (s : State) : (measureStart s).node = s.node := by
  simp [measureStart]

@[simp] theorem finishDiscovery_node (n : Nat) (ok : Bool) (s : State) :
    (finishDiscovery n ok s).node = s.node := by simp [finishDiscovery, announceLength]

@[simp] theorem assignNext_node (s : State) : (assignNext s).node = s.node := by
  obtain ⟨-, h⟩ | ⟨-, h⟩ := assignNext_cases s <;> rw [h] <;> simp

@[simp] theorem continueProc_node (r : WaitResult) (s : State) : (continueProc r s).node = s.node := by
  unfold continueProc
  split
  · unfold assignAnswered; split
    · rfl
    · simp
    · split <;> simp
  · unfold enableAnswered; split <;> simp
  · unfold recoveryAssignAnswered; split
    · rfl
    · simp
    · split <;> simp
  · unfold recoveryEnableAnswered; split <;> simp
  · unfold measureAnswered measureFinish; split <;> simp [announceLength]
  · unfold sendAnswered; split <;> simp

@[simp] theorem resolveWait_node (s : State) : (resolveWait s).node = s.node := by
  obtain ⟨-, h⟩ | ⟨-, -, h⟩ | ⟨-, -, h⟩ | ⟨-, -, h⟩ := resolveWait_cases s <;> rw [h] <;> simp

@[simp] theorem commanderTick_node (s : State) : (commanderTick s).node = s.node := by
  obtain ⟨-, h⟩ | ⟨-, -, h⟩ := commanderTick_cases s <;> rw [h] <;> simp [startRecovery_enters]

/-- No host call writes a node register. -/
theorem hostCall_node {op : HostOp} {s t : State} (h : hostCall op s = .next t) : t.node = s.node := by
  obtain ⟨-, rfl⟩ | ⟨-, d, n, data, w, -, -, rfl⟩ | ⟨-, -, rfl⟩ | ⟨-, str, -, rfl⟩ := hostCall_cases h
  · simp
  · unfold commandCall; simp only; split <;> simp
  · unfold beginDiscovery; split <;> simp [beginReset]
  · simp

/-! ## A node's tick -/

/-- What the announce rule can write (R233). -/
theorem announceRule_node (s : State) :
    (announceRule s).node = s.node ∨
      ((s.node.chainState = .unassigned ∨ s.node.chainState = .discovering) ∧
        s.cfg.discoveryIntervalMs.toNat ≤ (s.now - s.node.lastAnnounce).toNat ∧
        (announceRule s).node = { s.node with lastAnnounce := s.now, chainState := .discovering }) := by
  unfold announceRule
  split
  · next h => exact .inr ⟨by simpa [unassignedState] using h.1, h.2, by simp⟩
  · exact .inl rfl

@[simp] theorem announceRule_cfg (s : State) : (announceRule s).cfg = s.cfg := by
  unfold announceRule; split <;> simp

@[simp] theorem announceRule_now (s : State) : (announceRule s).now = s.now := by
  unfold announceRule; split <;> simp

/-- What the probe-timeout rule can write (R234). -/
theorem probeTimeoutRule_node (s : State) :
    (probeTimeoutRule s).node = s.node ∨
      (s.node.chainState = .assigned ∧ s.node.probeArmed = true ∧
        s.cfg.discoveryMode = .nodeToNode ∧
        s.cfg.probeTimeoutMult * s.cfg.discoveryIntervalMs.toNat ≤ (s.now - s.node.probeStart).toNat ∧
        (probeTimeoutRule s).node = { s.node with
          probeArmed := false, chainState := .terminating, propagationMode := true,
          chainLength := s.node.localAddress + 1 }) := by
  unfold probeTimeoutRule
  split
  · next h =>
    simp only [probeTimedOut, armed, Bool.and_eq_true, decide_eq_true_eq] at h
    exact .inr ⟨h.1.2.1, h.1.2.2, h.1.1, h.2, by simp⟩
  · exact .inl rfl

/-- What a node's tick can write (R365): the error status, and beside it what the announce rule or the
probe-timeout rule writes, never both. -/
theorem nodeTick_node (s : State) :
    ∃ e la, (nodeTick s).node = { s.node with errorStatus := e } ∨
      ((s.node.chainState = .unassigned ∨ s.node.chainState = .discovering) ∧
        s.cfg.discoveryIntervalMs.toNat ≤ (s.now - s.node.lastAnnounce).toNat ∧
        (nodeTick s).node =
          { s.node with errorStatus := e, lastAnnounce := la, chainState := .discovering }) ∨
      (s.node.chainState = .assigned ∧ s.node.probeArmed = true ∧
        s.cfg.discoveryMode = .nodeToNode ∧
        s.cfg.probeTimeoutMult * s.cfg.discoveryIntervalMs.toNat ≤ (s.now - s.node.probeStart).toNat ∧
        (nodeTick s).node = { s.node with
          errorStatus := e, probeArmed := false, chainState := .terminating, propagationMode := true,
          chainLength := s.node.localAddress + 1 }) := by
  obtain ⟨e, he⟩ : ∃ e, (errorIndication (probeTimeoutRule (announceRule s))).node =
      { (probeTimeoutRule (announceRule s)).node with errorStatus := e } := ⟨_, rfl⟩
  refine ⟨e, s.now, ?_⟩
  unfold nodeTick
  rw [he]
  rcases announceRule_node s with h | ⟨hu, hi, h⟩ <;>
    rcases probeTimeoutRule_node (announceRule s) with h' | ⟨ha, hp, hm, hx, h'⟩
  · exact .inl (by rw [h', h])
  · rw [h] at ha hp hx h'
    rw [announceRule_cfg] at hm hx
    rw [announceRule_now] at hx
    exact .inr (.inr ⟨ha, hp, hm, hx, by rw [h']⟩)
  · exact .inr (.inl ⟨hu, hi, by rw [h', h]⟩)
  · rw [h] at ha; simp at ha

/-! ## A whole step -/

/-- Everything a step can make of the node registers, with the event that does it. -/
inductive StepWrite (s : State) : NodeRegs → Prop
  | same : StepWrite s s.node
  | noted : StepWrite s { s.node with lastUpRx := s.now }
  | instr (p : Port) (b : Byte) (i : Instr) (n : NodeRegs) : nextInstr s = some (p, i) →
      NodeWrite i (arrival p b s) n → StepWrite s n
  | tick (t : U32) (rest : List Event) : s.inputs = .tick t :: rest → s.cfg.role = .node →
      StepWrite s (nodeTick (takeTime t (beginEvent s))).node
  | externalReset (now : U32) (rest : List Event) : s.inputs = .externalReset now :: rest →
      StepWrite s (NodeRegs.reset now)

/-- A byte's forwarding and the beginning of a step write no node register. -/
theorem received_node {s s1 : State} {p : Port} {b : Byte}
    (h : s.cfg.role = .node ∧ s1 = forwardReceived p b (beginEvent s) ∨
      s.cfg.role = .commander ∧ p = .down ∧ s1 = beginEvent s) : s1.node = s.node ∧ s1.now = s.now := by
  rcases h with ⟨-, rfl⟩ | ⟨-, -, rfl⟩ <;> simp

/-- A step writes one of the listed things into the node's registers. -/
theorem step_write {s t : State} (h : step s = .next t) : StepWrite s t.node := by
  cases step_cases h with
  | idle => exact .same
  | dropped => exact .same
  | busDiscard => exact .same
  | captured p b s1 _ _ _ h1 => rw [framed_node, (received_node h1).1]; exact .same
  | badFrame p b s1 r _ _ _ h1 => rw [raise_node, framed_node, (received_node h1).1]; exact .same
  | unknownCode p b s1 _ _ _ h1 =>
    cases p
    · simp only [noteUpstream, framed_node, framed_now, (received_node h1).1, (received_node h1).2]
      exact .noted
    · simp only [noteUpstream, framed_node, (received_node h1).1]
      exact .same
  | instr p b i t _ _ hi he => exact .instr p b i _ hi (exec_nodeWrite he)
  | txDone p b q rest _ _ => simpa using StepWrite.same
  | nodeTick t rest hi _ hr => exact .tick t rest hi hr
  | commanderTick t rest _ _ _ => simpa using StepWrite.same
  | completion rest _ _ =>
    unfold nodeTransitionComplete
    split <;> simpa using StepWrite.same
  | panicRequest x rest _ _ => simpa [nodePanicRequest] using StepWrite.same
  | hostCall op rest t _ _ he => rw [hostCall_node he]; exact .same
  | externalReset now rest hi => exact .externalReset now rest hi
  | touchLevel => exact .same

end Sys2Proof.Machine
end

