-- ==== Sys2Proof/Laws/Buffers.lean ====
section
/-! SUPPORT. The operations that move no framer and keep the FIFOs within their bound: `KeepsBuffers` says so
of two states, and one lemma each says it of an operation. -/

namespace Sys2Proof.Machine

open Sys2Proof Host

/-- The configuration and the framers are those of `s`, and the FIFOs' bound is kept. -/
structure KeepsBuffers (s t : State) : Prop where
  cfg : t.cfg = s.cfg
  frUp : t.frUp = s.frUp
  frDown : t.frDown = s.frDown
  fifo : FifoInv s → FifoInv t

theorem KeepsBuffers.refl (s : State) : KeepsBuffers s s := ⟨rfl, rfl, rfl, id⟩

theorem KeepsBuffers.trans {s t u : State} (h : KeepsBuffers s t) (k : KeepsBuffers t u) :
    KeepsBuffers s u :=
  ⟨k.cfg.trans h.cfg, k.frUp.trans h.frUp, k.frDown.trans h.frDown, fun x => k.fifo (h.fifo x)⟩

/-- A change of other fields only. -/
theorem keepsBuffers_of_eq {s t : State} (hc : t.cfg = s.cfg) (hu : t.frUp = s.frUp)
    (hd : t.frDown = s.frDown) (hx : t.txUp = s.txUp) (hy : t.txDown = s.txDown) : KeepsBuffers s t :=
  ⟨hc, hu, hd, by unfold FifoInv; rw [hc, hx, hy]; exact id⟩

theorem keepsBuffers_originate (p : Port) (o d h : Byte) (ack : Bool) (n : CmdName) (data : List Byte)
    (s : State) : KeepsBuffers s (originate p o d h ack n data s) :=
  ⟨by simp, by simp, by simp, originate_fifoInv p o d h ack n data⟩

theorem keepsBuffers_nodeSend (p : Port) (d : Byte) (n : CmdName) (data : List Byte) (s : State) :
    KeepsBuffers s (nodeSend p d n data s) := keepsBuffers_originate ..

theorem keepsBuffers_commanderSend (d : Byte) (n : CmdName) (data : List Byte) (ack : Bool) (s : State) :
    KeepsBuffers s (commanderSend d n data ack s) := keepsBuffers_originate ..

theorem keepsBuffers_ackIfRequested (n : CmdName) (p : Body) (s : State) :
    KeepsBuffers s (ackIfRequested n p s) :=
  ⟨by simp, by simp, by simp, ackIfRequested_fifoInv n p⟩

theorem keepsBuffers_request (d : Byte) (n : CmdName) (data : List Byte) (ack : Bool) (s : State) :
    KeepsBuffers s (request d n data ack s) :=
  ⟨by simp, by simp, by simp, request_fifoInv d n data ack⟩

theorem keepsBuffers_forwardReceived (p : Port) (b : Byte) (s : State) :
    KeepsBuffers s (forwardReceived p b s) := by
  unfold forwardReceived
  split
  · exact ⟨by simp, by simp, by simp, forward_fifoInv p.other b⟩
  · exact .refl s

theorem keepsBuffers_beginEvent (s : State) : KeepsBuffers s (beginEvent s) :=
  keepsBuffers_of_eq rfl rfl rfl rfl rfl

theorem keepsBuffers_takeTime (t : U32) (s : State) : KeepsBuffers s (takeTime t s) :=
  keepsBuffers_of_eq rfl rfl rfl rfl rfl

theorem keepsBuffers_enter (p : Proc) (ph : Phase) (s : State) : KeepsBuffers s (enter p ph s) :=
  keepsBuffers_of_eq rfl rfl rfl rfl rfl

theorem keepsBuffers_goIdle (s : State) : KeepsBuffers s (goIdle s) :=
  keepsBuffers_of_eq rfl rfl rfl rfl rfl

theorem keepsBuffers_setI (n : Nat) (s : State) : KeepsBuffers s (setI n s) :=
  keepsBuffers_of_eq rfl rfl rfl rfl rfl

theorem keepsBuffers_emit (o : Output) (s : State) : KeepsBuffers s (emit o s) :=
  keepsBuffers_of_eq rfl rfl rfl rfl rfl

theorem keepsBuffers_raise (e : ErrorEvent) (s : State) : KeepsBuffers s (raise e s) :=
  keepsBuffers_of_eq rfl rfl rfl rfl rfl

/-- A change of commander registers. -/
theorem keepsBuffers_cmdr (c : CommanderRegs) (s : State) : KeepsBuffers s { s with cmdr := c } :=
  keepsBuffers_of_eq rfl rfl rfl rfl rfl

/-- A change of node registers. -/
theorem keepsBuffers_node (n : NodeRegs) (s : State) : KeepsBuffers s { s with node := n } :=
  keepsBuffers_of_eq rfl rfl rfl rfl rfl

/-! ## The commander's procedures -/

theorem keepsBuffers_announceLength (n : Nat) (s : State) : KeepsBuffers s (announceLength n s) :=
  (keepsBuffers_cmdr _ s).trans (keepsBuffers_commanderSend ..)

theorem keepsBuffers_finishDiscovery (n : Nat) (ok : Bool) (s : State) :
    KeepsBuffers s (finishDiscovery n ok s) :=
  ((keepsBuffers_announceLength n s).trans (keepsBuffers_goIdle _)).trans (keepsBuffers_emit ..)

theorem keepsBuffers_assignNext (s : State) : KeepsBuffers s (assignNext s) := by
  obtain ⟨-, h⟩ | ⟨-, h⟩ := assignNext_cases s <;> rw [h]
  · exact keepsBuffers_finishDiscovery ..
  · exact (keepsBuffers_request ..).trans (keepsBuffers_enter ..)

theorem keepsBuffers_measureNext (s : State) : KeepsBuffers s (measureNext s) := by
  obtain ⟨-, h⟩ | ⟨-, h⟩ := measureNext_cases s <;> rw [h]
  · exact (keepsBuffers_announceLength ..).trans (keepsBuffers_goIdle _)
  · exact (keepsBuffers_request ..).trans (keepsBuffers_enter ..)

theorem keepsBuffers_measureStart (s : State) : KeepsBuffers s (measureStart s) :=
  (keepsBuffers_setI 0 s).trans (keepsBuffers_measureNext _)

theorem keepsBuffers_continueProc (r : WaitResult) (s : State) : KeepsBuffers s (continueProc r s) := by
  unfold continueProc
  split
  · unfold assignAnswered; split
    · exact .refl s
    · exact keepsBuffers_finishDiscovery ..
    · split
      · exact (keepsBuffers_request ..).trans (keepsBuffers_enter ..)
      · exact ((keepsBuffers_commanderSend ..).trans (keepsBuffers_setI ..)).trans
          (keepsBuffers_assignNext _)
  · unfold enableAnswered; split
    · exact .refl s
    · exact (keepsBuffers_setI ..).trans (keepsBuffers_assignNext _)
    · exact keepsBuffers_finishDiscovery ..
  · unfold recoveryAssignAnswered; split
    · exact .refl s
    · exact keepsBuffers_measureStart s
    · split
      · exact (keepsBuffers_request ..).trans (keepsBuffers_enter ..)
      · exact (keepsBuffers_commanderSend ..).trans (keepsBuffers_measureStart _)
  · unfold recoveryEnableAnswered; split
    · exact .refl s
    · exact keepsBuffers_measureStart s
    · exact keepsBuffers_measureStart s
  · unfold measureAnswered; split
    · exact .refl s
    · exact (keepsBuffers_setI ..).trans (keepsBuffers_measureNext _)
    · exact (keepsBuffers_announceLength ..).trans (keepsBuffers_goIdle _)
  · unfold sendAnswered; split
    · exact .refl s
    · exact (keepsBuffers_goIdle s).trans (keepsBuffers_emit ..)
    · exact ((keepsBuffers_goIdle s).trans (keepsBuffers_emit (.hostResult .command false) _)).trans
        (keepsBuffers_cmdr _ _)

theorem keepsBuffers_startRecovery (s : State) : KeepsBuffers s (startRecovery s) := by
  obtain ⟨s1, rfl, ⟨-, h⟩ | ⟨-, h⟩⟩ := startRecovery_cases s <;> rw [h]
  · exact (keepsBuffers_cmdr _ s).trans (keepsBuffers_measureStart _)
  · exact ((keepsBuffers_cmdr _ s).trans (keepsBuffers_request ..)).trans (keepsBuffers_enter ..)

theorem keepsBuffers_commanderTick (s : State) : KeepsBuffers s (commanderTick s) := by
  have hw : KeepsBuffers s (resolveWait s) := by
    obtain ⟨-, h⟩ | ⟨-, -, h⟩ | ⟨-, -, h⟩ | ⟨-, -, h⟩ := resolveWait_cases s <;> rw [h]
    · exact .refl s
    · exact .refl s
    · exact keepsBuffers_continueProc ..
    · exact (keepsBuffers_raise ..).trans (keepsBuffers_continueProc ..)
  obtain ⟨-, h⟩ | ⟨-, -, h⟩ := commanderTick_cases s <;> rw [h]
  · exact hw
  · exact hw.trans (keepsBuffers_startRecovery _)

theorem keepsBuffers_sendCharacters (k : Nat) (glyphs : List Byte) (s : State) :
    KeepsBuffers s (sendCharacters k glyphs s) := by
  induction glyphs generalizing k s with
  | nil => exact .refl s
  | cons g rest ih => exact (keepsBuffers_commanderSend ..).trans (ih ..)

theorem keepsBuffers_beginReset (s : State) : KeepsBuffers s (beginReset s) :=
  (keepsBuffers_cmdr _ s).trans (keepsBuffers_commanderSend ..)

theorem keepsBuffers_hostCall {op : HostOp} {s t : State} (h : hostCall op s = .next t) :
    KeepsBuffers s t := by
  obtain ⟨-, rfl⟩ | ⟨-, d, n, data, w, -, -, rfl⟩ | ⟨-, -, rfl⟩ | ⟨-, str, -, rfl⟩ := hostCall_cases h
  · exact keepsBuffers_emit ..
  · unfold commandCall; simp only; split
    · refine KeepsBuffers.trans ?_ (keepsBuffers_enter ..)
      have hq := keepsBuffers_request d n data (ack1 s.cfg && w) s
      generalize request d n data (ack1 s.cfg && w) s = u at *
      exact hq.trans (keepsBuffers_cmdr _ u)
    · exact (keepsBuffers_commanderSend ..).trans (keepsBuffers_emit ..)
  · unfold beginDiscovery; split
    · exact ((keepsBuffers_beginReset s).trans (keepsBuffers_setI ..)).trans (keepsBuffers_assignNext _)
    · exact (keepsBuffers_beginReset s).trans (keepsBuffers_emit ..)
  · exact (keepsBuffers_sendCharacters ..).trans (keepsBuffers_emit ..)

/-! ## A node's rules -/

theorem keepsBuffers_nodeTick (s : State) : KeepsBuffers s (nodeTick s) := by
  have ha : KeepsBuffers s (announceRule s) := by
    unfold announceRule; split
    · exact (keepsBuffers_originate ..).trans (keepsBuffers_node _ _)
    · exact .refl s
  have hp : ∀ u, KeepsBuffers u (probeTimeoutRule u) := by
    intro u; unfold probeTimeoutRule; split
    · exact (keepsBuffers_node _ u).trans (keepsBuffers_nodeSend ..)
    · exact .refl u
  exact (ha.trans (hp _)).trans (keepsBuffers_node _ _)

theorem keepsBuffers_nodeRule (i : Instr) (s : State) : KeepsBuffers s (nodeRule i s).state := by
  cases i <;> first | exact keepsBuffers_of_eq rfl rfl rfl rfl rfl | skip
  case assignAddress p =>
    simp only [nodeRule, nodeAssignAddress]; split <;> exact keepsBuffers_of_eq rfl rfl rfl rfl rfl
  case startBusMode p =>
    simp only [nodeRule, nodeStartBusMode]; split <;> exact keepsBuffers_of_eq rfl rfl rfl rfl rfl
  case announce p =>
    simp only [nodeRule, nodeAnnounce]; split
    · exact keepsBuffers_nodeSend ..
    · exact .refl s
  case probe p =>
    simp only [nodeRule, nodeProbe]; split
    · exact keepsBuffers_nodeSend ..
    · split
      · split
        · exact ((keepsBuffers_node _ s).trans (keepsBuffers_nodeSend ..)).trans (keepsBuffers_nodeSend ..)
        · exact keepsBuffers_raise ..
      · exact .refl s
  case probeResponse p =>
    simp only [nodeRule, nodeProbeResponse]; split <;> exact keepsBuffers_of_eq rfl rfl rfl rfl rfl
  case terminatorAnnounce p =>
    simp only [nodeRule, nodeTerminatorAnnounce]; split
    · split
      · exact (keepsBuffers_node _ s).trans (keepsBuffers_nodeSend ..)
      · exact keepsBuffers_node _ s
    · exact .refl s
  case touchRead p => exact keepsBuffers_nodeSend ..

theorem keepsBuffers_commanderRule (i : Instr) (s : State) : KeepsBuffers s (commanderRule i s) := by
  cases i <;> first | exact keepsBuffers_of_eq rfl rfl rfl rfl rfl | skip
  case announce p =>
    simp only [commanderRule, commanderAnnounce]; split
    · exact keepsBuffers_commanderSend ..
    · exact .refl s

/-- No instruction moves a framer or overfills a FIFO. -/
theorem exec_keepsBuffers {i : Instr} {s t : State} (h : exec i s = .next t) : KeepsBuffers s t := by
  obtain rfl | rfl | ⟨-, -, -, -, ⟨-, -, rfl⟩ | ⟨-, rfl⟩⟩ | ⟨-, rfl⟩ := exec_cases h
  · exact .refl _
  · exact keepsBuffers_raise ..
  · exact (keepsBuffers_nodeRule ..).trans (keepsBuffers_ackIfRequested ..)
  · exact keepsBuffers_nodeRule ..
  · exact keepsBuffers_commanderRule ..

end Sys2Proof.Machine
end

