-- ==== Sys2Proof/Laws/Codec.lean ====
section
/-! SUPPORT. Lemmas of the codec: bytes and nibbles of a field put together again, the code lookup, and what
the two decoders make of the bytes the encoders write. -/

namespace Sys2Proof

/-- The two bytes of a u16 put together (R14). -/
@[simp] theorem be16_hi8_lo8 (v : U16) : be16 (hi8 v) (lo8 v) = v := by
  unfold be16 hi8 lo8
  ext i hi
  simp only [← BitVec.getLsbD_eq_getElem, BitVec.getLsbD_append, BitVec.getLsbD_extractLsb']
  split
  · simp [*]
  · rw [show 8 + (i - 8) = i by omega]; simp; omega

/-- The two nibbles of a byte put together (R119). -/
@[simp] theorem joinNibbles_nibbles (v : Byte) : joinNibbles (highNibble v) (lowNibble v) = v := by
  revert v; decide

/-- A nibble-padded byte is at most 15 (R115). -/
theorem highNibble_le (v : Byte) : (highNibble v).toNat ≤ 0x0F := by revert v; decide

/-- A nibble-padded byte is at most 15 (R115). -/
theorem lowNibble_le (v : Byte) : (lowNibble v).toNat ≤ 0x0F := by revert v; decide

@[simp] theorem nibbles_length (l : List Byte) : (nibbles l).length = 2 * l.length := by
  induction l with
  | nil => rfl
  | cons v l ih => simp [nibbles, ih]; omega

/-- De-nibbling gives the doubled bytes back (R119). -/
@[simp] theorem denibble_nibbles (l : List Byte) : denibble (nibbles l) = l := by
  induction l with
  | nil => rfl
  | cons v l ih => simp [nibbles, denibble, ih]

theorem nibbles_append (x y : List Byte) : nibbles (x ++ y) = nibbles x ++ nibbles y := by
  induction x with
  | nil => rfl
  | cons v x ih => simp [nibbles, ih]

/-- Every byte of a nibble-padded sequence is at most 15 (R115). -/
theorem le_of_mem_nibbles {l : List Byte} {b : Byte} (h : b ∈ nibbles l) : b.toNat ≤ 0x0F := by
  induction l with
  | nil => simp [nibbles] at h
  | cons v l ih =>
    simp only [nibbles, List.mem_cons] at h
    obtain rfl | rfl | h := h
    · exact highNibble_le v
    · exact lowNibble_le v
    · exact ih h

/-- Half as many logical bytes as wire bytes (R119). -/
theorem denibble_length : ∀ l : List Byte, (denibble l).length = l.length / 2
  | [] => rfl
  | [_] => by simp [denibble]
  | _ :: _ :: l => by simp [denibble, denibble_length l]; omega

theorem bodyP1_length (p : Packet) : (bodyP1 p).length = 9 + p.data.length := by
  simp [bodyP1]; omega

theorem bodyP2_length (p : Packet) : (bodyP2 p).length = 16 + 2 * p.data.length := by
  simp [bodyP2, headerP2]

/-- The payload's length is what the length field says (R17). -/
theorem dataLen_toNat {p : Packet} (h : p.data.length ≤ 255) : (dataLen p).toNat = p.data.length := by
  simp [dataLen, BitVec.toNat_ofNat]; omega

/-- The P1 decoder (R185) with the header's length written out. -/
theorem decodeP1_eq (c : List Byte) :
    decodeP1 c =
      if c.length < 9 then .dropped .shortFrame
      else if c.length ≠ 9 + (c.getD 8 0).toNat then .dropped .lengthMismatch
      else .packet (fieldsP1 c) := rfl

/-- The P1 decoder reads the P1 encoder's bytes as the packet (R198). -/
theorem decodeP1_bodyP1 {p : Packet} (h : p.data.length ≤ 255) : decodeP1 (bodyP1 p) = .packet p := by
  have hl := bodyP1_length p
  have h8 : byteAt (bodyP1 p) 8 = dataLen p := rfl
  unfold decodeP1
  rw [if_neg (by simp [p1HeaderLen, hl]), if_neg (by rw [h8, dataLen_toNat h]; simp [p1HeaderLen, hl])]
  have hd : ((bodyP1 p).drop p1HeaderLen).take (byteAt (bodyP1 p) 8).toNat = p.data := by
    rw [h8, dataLen_toNat h]; simp [bodyP1, p1HeaderLen]
  have ha : (byteAt (bodyP1 p) 5).getLsbD 7 = p.ack := by
    show (if p.ack then (0x80 : Byte) else 0x00).getLsbD 7 = p.ack
    cases p.ack <;> rfl
  simp only [fieldsP1, hd, ha]
  show Decoded.packet ⟨⟨be16 (hi8 p.pid) (lo8 p.pid), p.origin, p.dest, p.firstHop, p.ack, p.data⟩,
    be16 (hi8 p.cmd) (lo8 p.cmd)⟩ = _
  simp

/-- The P2 decoder reads the P2 encoder's bytes as the packet, whose `ack` P2 does not carry (R198). -/
theorem decodeP2_bodyP2 {p : Packet} (h : p.data.length ≤ 255) (ha : p.ack = false) :
    decodeP2 (bodyP2 p) = .packet p := by
  have hl := bodyP2_length p
  have he : bodyP2 p = nibbles (headerP2 p ++ p.data) := (nibbles_append _ _).symm
  have hany : (bodyP2 p).any (fun b => decide (0x0F < b.toNat)) = false := by
    rw [List.any_eq_false]
    intro b hb
    have := le_of_mem_nibbles (he ▸ hb)
    simpa using this
  unfold decodeP2
  rw [if_neg (by simp [p2HeaderWireLen, hl]), if_neg (by omega), if_neg (by simp [hany]), he,
    denibble_nibbles, if_neg (by simp [headerP2, p2HeaderLogicalLen]; omega)]
  show Decoded.packet ⟨⟨be16 (hi8 p.pid) (lo8 p.pid), p.origin, p.dest, p.firstHop, false, p.data⟩,
    be16 (hi8 p.cmd) (lo8 p.cmd)⟩ = _
  simp [← ha]

/-- Every command name is listed. -/
theorem CmdName.mem_all (n : CmdName) : n ∈ CmdName.all := by cases n <;> decide

/-- The lookup of a name's own code under pairwise distinct codes (R130). -/
theorem nameOf_code {c : CmdCodes} (h : c.wf = true) (n : CmdName) : c.nameOf (c.code n) = some n := by
  have hnd : (CmdName.all.map c.code).Nodup := by
    simp only [CmdCodes.wf, Bool.and_eq_true, decide_eq_true_eq] at h
    exact h.1
  have hinj : ∀ m, c.code m = c.code n → m = n := fun m hm =>
    List.inj_on_of_nodup_map hnd (CmdName.mem_all m) (CmdName.mem_all n) hm
  unfold CmdCodes.nameOf
  cases hf : CmdName.all.find? fun m => c.code m == c.code n with
  | none => exact absurd (List.find?_eq_none.mp hf n (CmdName.mem_all n)) (by simp)
  | some m => rw [hinj m (by simpa using List.find?_some hf)]

/-- A found name has the code. -/
theorem code_of_nameOf {c : CmdCodes} {cmd : U16} {n : CmdName} (h : c.nameOf cmd = some n) :
    c.code n = cmd := by
  unfold CmdCodes.nameOf at h
  simpa using List.find?_some h

@[simp] theorem CmdName.instr_name (n : CmdName) (p : Body) : (n.instr p).name = n := by cases n <;> rfl

@[simp] theorem CmdName.instr_body (n : CmdName) (p : Body) : (n.instr p).body = p := by cases n <;> rfl

@[simp] theorem Instr.instr_of_name_body (i : Instr) : i.name.instr i.body = i := by cases i <;> rfl

@[simp] theorem Instr.packet_body (cfg : Config) (i : Instr) : (i.packet cfg).toBody = i.body := rfl

@[simp] theorem Instr.packet_cmd (cfg : Config) (i : Instr) :
    (i.packet cfg).cmd = cfg.codes.code i.name := rfl

end Sys2Proof
end

