-- ==== Sys2Proof/Laws/PerInstr.lean ====
section
/-! SUPPORT. Statements about every instruction as syntax, one lemma per constructor: an instruction is its
name with its operands, and its code leads back to its name. -/

namespace Sys2Proof.Laws

open Sys2Proof

/-- An instruction is rebuilt from its command name and its operands. -/
def NameAndBody.Statement (i : Instr) : Prop := i.name.instr i.body = i

/-- The code an instruction's packet carries is looked up as the instruction's own name (R130, R260). -/
def CodeLookup.Statement (i : Instr) : Prop :=
  ∀ cfg : Config, cfg.codes.wf = true → cfg.codes.nameOf (i.packet cfg).cmd = some i.name

theorem NameAndBody.reset (p : Body) : NameAndBody.Statement (.reset p) :=
  rfl
theorem NameAndBody.assignAddress (p : Body) : NameAndBody.Statement (.assignAddress p) :=
  rfl
theorem NameAndBody.enablePropagation (p : Body) : NameAndBody.Statement (.enablePropagation p) :=
  rfl
theorem NameAndBody.setChainLength (p : Body) : NameAndBody.Statement (.setChainLength p) :=
  rfl
theorem NameAndBody.startBusMode (p : Body) : NameAndBody.Statement (.startBusMode p) :=
  rfl
theorem NameAndBody.endBusMode (p : Body) : NameAndBody.Statement (.endBusMode p) :=
  rfl
theorem NameAndBody.announce (p : Body) : NameAndBody.Statement (.announce p) :=
  rfl
theorem NameAndBody.probe (p : Body) : NameAndBody.Statement (.probe p) :=
  rfl
theorem NameAndBody.probeResponse (p : Body) : NameAndBody.Statement (.probeResponse p) :=
  rfl
theorem NameAndBody.terminatorAnnounce (p : Body) : NameAndBody.Statement (.terminatorAnnounce p) :=
  rfl
theorem NameAndBody.ack (p : Body) : NameAndBody.Statement (.ack p) :=
  rfl
theorem NameAndBody.panic (p : Body) : NameAndBody.Statement (.panic p) :=
  rfl
theorem NameAndBody.readyStatus (p : Body) : NameAndBody.Statement (.readyStatus p) :=
  rfl
theorem NameAndBody.touchState (p : Body) : NameAndBody.Statement (.touchState p) :=
  rfl
theorem NameAndBody.setBrightness (p : Body) : NameAndBody.Statement (.setBrightness p) :=
  rfl
theorem NameAndBody.setDisplayColors (p : Body) : NameAndBody.Statement (.setDisplayColors p) :=
  rfl
theorem NameAndBody.setBackgroundColors (p : Body) : NameAndBody.Statement (.setBackgroundColors p) :=
  rfl
theorem NameAndBody.setBacklight (p : Body) : NameAndBody.Statement (.setBacklight p) :=
  rfl
theorem NameAndBody.setGradient (p : Body) : NameAndBody.Statement (.setGradient p) :=
  rfl
theorem NameAndBody.setTransitionType (p : Body) : NameAndBody.Statement (.setTransitionType p) :=
  rfl
theorem NameAndBody.setTransitionDuration (p : Body) : NameAndBody.Statement (.setTransitionDuration p) :=
  rfl
theorem NameAndBody.setTransitionInterpolation (p : Body) : NameAndBody.Statement (.setTransitionInterpolation p) :=
  rfl
theorem NameAndBody.setFrameBlending (p : Body) : NameAndBody.Statement (.setFrameBlending p) :=
  rfl
theorem NameAndBody.setCharacter (p : Body) : NameAndBody.Statement (.setCharacter p) :=
  rfl
theorem NameAndBody.showCmd (p : Body) : NameAndBody.Statement (.showCmd p) :=
  rfl
theorem NameAndBody.touchRead (p : Body) : NameAndBody.Statement (.touchRead p) :=
  rfl
theorem NameAndBody.calibrateTouch (p : Body) : NameAndBody.Statement (.calibrateTouch p) :=
  rfl
theorem NameAndBody.saveConfig (p : Body) : NameAndBody.Statement (.saveConfig p) :=
  rfl

theorem CodeLookup.reset (p : Body) : CodeLookup.Statement (.reset p) :=
  fun _ h => nameOf_code h .reset
theorem CodeLookup.assignAddress (p : Body) : CodeLookup.Statement (.assignAddress p) :=
  fun _ h => nameOf_code h .assignAddress
theorem CodeLookup.enablePropagation (p : Body) : CodeLookup.Statement (.enablePropagation p) :=
  fun _ h => nameOf_code h .enablePropagation
theorem CodeLookup.setChainLength (p : Body) : CodeLookup.Statement (.setChainLength p) :=
  fun _ h => nameOf_code h .setChainLength
theorem CodeLookup.startBusMode (p : Body) : CodeLookup.Statement (.startBusMode p) :=
  fun _ h => nameOf_code h .startBusMode
theorem CodeLookup.endBusMode (p : Body) : CodeLookup.Statement (.endBusMode p) :=
  fun _ h => nameOf_code h .endBusMode
theorem CodeLookup.announce (p : Body) : CodeLookup.Statement (.announce p) :=
  fun _ h => nameOf_code h .announce
theorem CodeLookup.probe (p : Body) : CodeLookup.Statement (.probe p) :=
  fun _ h => nameOf_code h .probe
theorem CodeLookup.probeResponse (p : Body) : CodeLookup.Statement (.probeResponse p) :=
  fun _ h => nameOf_code h .probeResponse
theorem CodeLookup.terminatorAnnounce (p : Body) : CodeLookup.Statement (.terminatorAnnounce p) :=
  fun _ h => nameOf_code h .terminatorAnnounce
theorem CodeLookup.ack (p : Body) : CodeLookup.Statement (.ack p) :=
  fun _ h => nameOf_code h .ack
theorem CodeLookup.panic (p : Body) : CodeLookup.Statement (.panic p) :=
  fun _ h => nameOf_code h .panic
theorem CodeLookup.readyStatus (p : Body) : CodeLookup.Statement (.readyStatus p) :=
  fun _ h => nameOf_code h .readyStatus
theorem CodeLookup.touchState (p : Body) : CodeLookup.Statement (.touchState p) :=
  fun _ h => nameOf_code h .touchState
theorem CodeLookup.setBrightness (p : Body) : CodeLookup.Statement (.setBrightness p) :=
  fun _ h => nameOf_code h .setBrightness
theorem CodeLookup.setDisplayColors (p : Body) : CodeLookup.Statement (.setDisplayColors p) :=
  fun _ h => nameOf_code h .setDisplayColors
theorem CodeLookup.setBackgroundColors (p : Body) : CodeLookup.Statement (.setBackgroundColors p) :=
  fun _ h => nameOf_code h .setBackgroundColors
theorem CodeLookup.setBacklight (p : Body) : CodeLookup.Statement (.setBacklight p) :=
  fun _ h => nameOf_code h .setBacklight
theorem CodeLookup.setGradient (p : Body) : CodeLookup.Statement (.setGradient p) :=
  fun _ h => nameOf_code h .setGradient
theorem CodeLookup.setTransitionType (p : Body) : CodeLookup.Statement (.setTransitionType p) :=
  fun _ h => nameOf_code h .setTransitionType
theorem CodeLookup.setTransitionDuration (p : Body) : CodeLookup.Statement (.setTransitionDuration p) :=
  fun _ h => nameOf_code h .setTransitionDuration
theorem CodeLookup.setTransitionInterpolation (p : Body) : CodeLookup.Statement (.setTransitionInterpolation p) :=
  fun _ h => nameOf_code h .setTransitionInterpolation
theorem CodeLookup.setFrameBlending (p : Body) : CodeLookup.Statement (.setFrameBlending p) :=
  fun _ h => nameOf_code h .setFrameBlending
theorem CodeLookup.setCharacter (p : Body) : CodeLookup.Statement (.setCharacter p) :=
  fun _ h => nameOf_code h .setCharacter
theorem CodeLookup.showCmd (p : Body) : CodeLookup.Statement (.showCmd p) :=
  fun _ h => nameOf_code h .showCmd
theorem CodeLookup.touchRead (p : Body) : CodeLookup.Statement (.touchRead p) :=
  fun _ h => nameOf_code h .touchRead
theorem CodeLookup.calibrateTouch (p : Body) : CodeLookup.Statement (.calibrateTouch p) :=
  fun _ h => nameOf_code h .calibrateTouch
theorem CodeLookup.saveConfig (p : Body) : CodeLookup.Statement (.saveConfig p) :=
  fun _ h => nameOf_code h .saveConfig

end Sys2Proof.Laws
end

