-- ==== Sys2Proof/Tests/Slice0.lean ====
section
/-! SUPPORT. The model's own tests: ill-formed terms that the checks refuse, words written out from the
encoding and what they decode to, one step of each instruction on a small state, and for each statement
of Certificates/Slice0/Obligations.lean a concrete case that meets its hypotheses. The expected values
are those of 95_test_vectors.md (its vector is named beside each), not the model's own answers. -/

namespace Sys2Proof.Tests

open Sys2Proof Sys2Proof.Machine Host

-- One theorem at a time: each kernel evaluation holds a thread of its own.
set_option Elab.async false

/-! ## Small states -/

/-- The start state of 95_test_vectors.md section 2.3, with an address and a discovery state. -/
def nodeAt (cfg : Config) (address : Byte) (st : ChainState) : State :=
  { State.resetWith cfg 400 true with
    pidCounter := 5
    touchLevel := [0x01, 0xF4]
    node := { NodeRegs.reset 0 with localAddress := address, chainState := st } }

/-- The same node, propagating. -/
def propagating (s : State) : State := { s with node := { s.node with propagationMode := true } }

/-- The same node, its probe-timeout running since 300. -/
def armedNode (s : State) : State := { s with node := { s.node with probeArmed := true, probeStart := 300 } }

/-- A configuration under NODE_TO_NODE. -/
def cfgN : Config := { Config.reference with discoveryMode := .nodeToNode }

/-- A configuration under P2. -/
def cfgP2 : Config := { Config.reference with profile := .p2 }

/-- Node 0, assigned. -/
def node0 : State := nodeAt Config.reference 0 .assigned

/-- A node without an address. -/
def nodeU : State := nodeAt Config.reference 254 .unassigned

/-- A commander at time 1000 (95_test_vectors.md C4). -/
def boss (cfg : Config) : State := State.resetWith { cfg with role := .commander } 1000 true

/-- Wire bytes after the reference start pattern. -/
def wire (frame : List Byte) : List Byte := [0xA5, 0x5A, 0xC3, 0x3C] ++ frame

/-- A P1 frame that has arrived but for its last byte, which is the next event. -/
def arriving (p : Port) (frame : List Byte) (s : State) : State :=
  { s.setFramer p ⟨⟨0, 0, 0, 0⟩, 4, .capture, frame.dropLast⟩ with
    inputs := [.rxByte p (frame.getLastD 0)] }

/-- A P2 frame that has arrived but for the last byte of its end pattern. -/
def arrivingP2 (p : Port) (frame : List Byte) (s : State) : State :=
  { s.setFramer p ⟨⟨0, 0x3C, 0xC3, 0x5A⟩, 4, .capture, frame ++ [0x3C, 0xC3, 0x5A]⟩ with
    inputs := [.rxByte p 0xA5] }

/-- Another event as the next one. -/
def facing (e : Event) (s : State) : State := { s with inputs := [e] }

/-- A view of the state that a step answers, none where it does not go on. -/
def seen {α : Type} (view : State → α) (s : State) : Option α :=
  match step s with
  | .next t => some (view t)
  | _ => none

/-! ## Well-formedness: each check refuses -/

/-- R17: 256 payload bytes. -/
theorem test_body_too_long : Body.wf ⟨0, 0, 0, 0, false, List.replicate 256 0⟩ = false := by
  decide +kernel

/-- R17: 255 payload bytes are allowed. -/
theorem test_body_longest : Body.wf ⟨0, 0, 0, 0, false, List.replicate 255 0⟩ = true := by
  decide +kernel

/-- R17, C5: no ACK request under P2. -/
theorem test_instr_ack_under_p2 : Instr.wf .p2 (.showCmd ⟨0, 0, 0, 0, true, []⟩) = false := by decide

/-- R10: two commands with one code. -/
theorem test_codes_equal : CmdCodes.wf { CmdCodes.reference with probe := 6 } = false := by decide

/-- R130: a code above 33. -/
theorem test_codes_out_of_range : CmdCodes.wf { CmdCodes.reference with saveConfig := 34 } = false := by
  decide

theorem test_codes_reference : CmdCodes.reference.wf = true := by decide

theorem test_config_reference : Config.reference.wf = true := by decide

/-- R10: SYNC_P2 equal to its reverse. -/
theorem test_config_sync_p2_palindrome :
    Config.wf { Config.reference with syncP2 := ⟨1, 2, 2, 1⟩ } = false := by
  decide

/-- R10: CAP_MAX_P2 below 20. -/
theorem test_config_cap_max_p2 :
    Config.wf { Config.reference with capMaxP2 := 19 } = false := by
  decide

/-- R10: codes that are not distinct. -/
theorem test_config_codes :
    Config.wf { Config.reference with codes := { CmdCodes.reference with ack := 0 } } = false := by
  decide

/-- R10: DISCOVERY_INTERVAL_MS of 0. -/
theorem test_config_discovery_interval :
    Config.wf { Config.reference with discoveryIntervalMs := 0 } = false := by
  decide

/-- R10: PROBE_TIMEOUT_MULT of 0. -/
theorem test_config_probe_timeout :
    Config.wf { Config.reference with probeTimeoutMult := 0 } = false := by
  decide

/-- R10: ACK_TIMEOUT_MS of 0. -/
theorem test_config_ack_timeout :
    Config.wf { Config.reference with ackTimeoutMs := 0 } = false := by
  decide

/-- R10: UPSTREAM_GRACE_MS of 0. -/
theorem test_config_grace :
    Config.wf { Config.reference with upstreamGraceMs := 0 } = false := by
  decide

/-- R10: ACK_COMMANDS_P2 without ASSIGN_ADDRESS. -/
theorem test_config_ack_commands :
    Config.wf { Config.reference with ackCommandsP2 := [.probe] } = false := by
  decide

/-- R10: ACK_COMMANDS_P2 is a set. -/
theorem test_config_ack_commands_twice :
    Config.wf { Config.reference with ackCommandsP2 := [.assignAddress, .assignAddress] } = false := by
  decide

/-- R10: TOUCH_STATE_LEN above 255. -/
theorem test_config_touch_len :
    Config.wf { Config.reference with touchStateLen := 256 } = false := by
  decide

/-- R10: TX_FIFO_DEPTH below 534. -/
theorem test_config_fifo_depth :
    Config.wf { Config.reference with txFifoDepth := 533 } = false := by
  decide

/-! ## Decoding: words written out from 30_encoding.md R112, R116 and R131

A P1 frame is pid (2 bytes), origin, dest, first hop, flags, cmd (2 bytes), length, payload. -/

theorem test_decode_chain_commands :
    decode Config.reference
        [0x00, 0x10, 0xFD, 0xFF, 0xFD, 0x00, 0x00, 0x00, 0x00] =
      .instr (.reset ⟨0x10, 253, 255, 253, false, []⟩) ∧
    decode Config.reference
        [0x00, 0x11, 0xFD, 0xFE, 0xFD, 0x80, 0x00, 0x01, 0x01, 0x02] =
      .instr (.assignAddress ⟨0x11, 253, 254, 253, true, [2]⟩) ∧
    decode Config.reference
        [0x00, 0x15, 0xFD, 0x00, 0xFD, 0x80, 0x00, 0x02, 0x00] =
      .instr (.enablePropagation ⟨0x15, 253, 0, 253, true, []⟩) ∧
    decode Config.reference
        [0x00, 0x17, 0xFD, 0xFF, 0xFD, 0x00, 0x00, 0x03, 0x01, 0x07] =
      .instr (.setChainLength ⟨0x17, 253, 255, 253, false, [7]⟩) ∧
    decode Config.reference
        [0x00, 0x18, 0xFD, 0xFF, 0xFD, 0x00, 0x00, 0x04, 0x00] =
      .instr (.startBusMode ⟨0x18, 253, 255, 253, false, []⟩) ∧
    decode Config.reference
        [0x00, 0x1A, 0xFD, 0xFF, 0xFD, 0x00, 0x00, 0x05, 0x00] =
      .instr (.endBusMode ⟨0x1A, 253, 255, 253, false, []⟩) := by
  decide

theorem test_decode_discovery_messages :
    decode Config.reference
        [0x00, 0x00, 0xFE, 0xFF, 0xFE, 0x00, 0x00, 0x06, 0x00] =
      .instr (.announce ⟨0, 254, 255, 254, false, []⟩) ∧
    decode Config.reference
        [0x00, 0x1C, 0x01, 0xFF, 0x01, 0x00, 0x00, 0x07, 0x00] =
      .instr (.probe ⟨0x1C, 1, 255, 1, false, []⟩) ∧
    decode Config.reference
        [0x00, 0x03, 0x01, 0x00, 0x01, 0x00, 0x00, 0x08, 0x02, 0x00, 0x07] =
      .instr (.probeResponse ⟨3, 1, 0, 1, false, [0, 7]⟩) ∧
    decode Config.reference
        [0x00, 0x04, 0x01, 0xFF, 0x01, 0x00, 0x00, 0x09, 0x01, 0x02] =
      .instr (.terminatorAnnounce ⟨4, 1, 255, 1, false, [2]⟩) := by
  decide

theorem test_decode_responses :
    decode Config.reference
        [0x00, 0x05, 0x02, 0xFD, 0x02, 0x00, 0x00, 0x0A, 0x02, 0x00, 0x11] =
      .instr (.ack ⟨5, 2, 253, 2, false, [0, 0x11]⟩) ∧
    decode Config.reference
        [0x00, 0x00, 0xFE, 0xFD, 0x01, 0x00, 0x00, 0x0B, 0x00] =
      .instr (.panic ⟨0, 254, 253, 1, false, []⟩) ∧
    decode Config.reference
        [0x00, 0x05, 0x01, 0xFD, 0x01, 0x00, 0x00, 0x0C, 0x00] =
      .instr (.readyStatus ⟨5, 1, 253, 1, false, []⟩) ∧
    decode Config.reference
        [0x00, 0x05, 0x00, 0xFD, 0x00, 0x00, 0x00, 0x0D, 0x02, 0x01, 0xF4] =
      .instr (.touchState ⟨5, 0, 253, 0, false, [1, 0xF4]⟩) := by
  decide

theorem test_decode_render_commands :
    decode Config.reference
        [0x00, 0x20, 0xFD, 0x00, 0xFD, 0x00, 0x00, 0x0E, 0x01, 0x80] =
      .instr (.setBrightness ⟨0x20, 253, 0, 253, false, [0x80]⟩) ∧
    decode Config.reference
        [0x00, 0x23, 0xFD, 0x00, 0xFD, 0x80, 0x00, 0x0F, 0x06, 0xFF, 0x00, 0x00, 0x00, 0x00, 0xFF] =
      .instr (.setDisplayColors ⟨0x23, 253, 0, 253, true, [255, 0, 0, 0, 0, 255]⟩) ∧
    decode Config.reference
        [0x00, 0x24, 0xFD, 0x00, 0xFD, 0x00, 0x00, 0x10, 0x06, 0x00, 0x00, 0x10, 0x00, 0x00, 0x10] =
      .instr (.setBackgroundColors ⟨0x24, 253, 0, 253, false, [0, 0, 16, 0, 0, 16]⟩) ∧
    decode Config.reference
        [0x00, 0x25, 0xFD, 0x00, 0xFD, 0x00, 0x00, 0x11, 0x04, 0xFF, 0xFF, 0xFF, 0x40] =
      .instr (.setBacklight ⟨0x25, 253, 0, 253, false, [255, 255, 255, 64]⟩) ∧
    decode Config.reference
        [0x00, 0x26, 0xFD, 0x00, 0xFD, 0x00, 0x00, 0x12, 0x02, 0x01, 0x00] =
      .instr (.setGradient ⟨0x26, 253, 0, 253, false, [1, 0]⟩) ∧
    decode Config.reference
        [0x00, 0x27, 0xFD, 0x00, 0xFD, 0x00, 0x00, 0x13, 0x01, 0x01] =
      .instr (.setTransitionType ⟨0x27, 253, 0, 253, false, [1]⟩) ∧
    decode Config.reference
        [0x00, 0x28, 0xFD, 0x00, 0xFD, 0x00, 0x00, 0x14, 0x02, 0x00, 0xFA] =
      .instr (.setTransitionDuration ⟨0x28, 253, 0, 253, false, [0, 0xFA]⟩) ∧
    decode Config.reference
        [0x00, 0x29, 0xFD, 0x00, 0xFD, 0x00, 0x00, 0x15, 0x01, 0x00] =
      .instr (.setTransitionInterpolation ⟨0x29, 253, 0, 253, false, [0]⟩) ∧
    decode Config.reference
        [0x00, 0x2A, 0xFD, 0x00, 0xFD, 0x00, 0x00, 0x16, 0x01, 0xFF] =
      .instr (.setFrameBlending ⟨0x2A, 253, 0, 253, false, [255]⟩) ∧
    decode Config.reference
        [0x00, 0x2B, 0xFD, 0x00, 0xFD, 0x00, 0x00, 0x17, 0x01, 0x41] =
      .instr (.setCharacter ⟨0x2B, 253, 0, 253, false, [0x41]⟩) ∧
    decode Config.reference
        [0x12, 0x34, 0x05, 0xFF, 0x05, 0x7F, 0x00, 0x18, 0x00] =
      .instr (.showCmd ⟨0x1234, 5, 255, 5, false, []⟩) := by
  decide

theorem test_decode_touch_and_storage :
    decode Config.reference
        [0x00, 0x2D, 0xFD, 0x00, 0xFD, 0x80, 0x00, 0x19, 0x00] =
      .instr (.touchRead ⟨0x2D, 253, 0, 253, true, []⟩) ∧
    decode Config.reference
        [0x00, 0x2E, 0xFD, 0x00, 0xFD, 0x00, 0x00, 0x1A, 0x02, 0x00, 0x64] =
      .instr (.calibrateTouch ⟨0x2E, 253, 0, 253, false, [0, 0x64]⟩) ∧
    decode Config.reference
        [0x00, 0x2F, 0xFD, 0x00, 0xFD, 0x00, 0x00, 0x1B, 0x00] =
      .instr (.saveConfig ⟨0x2F, 253, 0, 253, false, []⟩) := by
  decide

/-- 95_test_vectors.md K5 and the frames of D40 and D42: P2, each byte a nibble. -/
theorem test_decode_p2 :
    decode cfgP2 [0x00, 0x01, 0x00, 0x00, 0x0F, 0x0D, 0x0F, 0x0F, 0x0F, 0x0D, 0x00, 0x00, 0x01, 0x08, 0x00,
        0x09, 0x00, 0x01] = .instr (.showCmd ⟨0x0100, 253, 255, 253, false, [1]⟩) ∧
    decode cfgP2 [0x01, 0x02, 0x03, 0x04, 0x0F, 0x0D, 0x0F, 0x0E, 0x0F, 0x0D, 0x00, 0x00, 0x00, 0x01, 0x00,
        0x01, 0x00, 0x01] = .instr (.assignAddress ⟨0x1234, 253, 254, 253, false, [1]⟩) ∧
    decode cfgP2 [0x0A, 0x0B, 0x0C, 0x0D, 0x0F, 0x0D, 0x00, 0x01, 0x0F, 0x0D, 0x00, 0x00, 0x00, 0x07, 0x00,
        0x00] = .instr (.probe ⟨0xABCD, 253, 1, 253, false, []⟩) := by
  decide

/-- R133: code 28 and code 0x0118 are no CMD_N parameter (D32). -/
theorem test_decode_unknown :
    decode Config.reference [0x00, 0x30, 0xFD, 0x00, 0xFD, 0x80, 0x00, 0x1C, 0x02, 0x01, 0x02] =
      .unknown ⟨⟨0x30, 253, 0, 253, true, [1, 2]⟩, 28⟩ ∧
    decode Config.reference [0x00, 0x30, 0xFD, 0x00, 0xFD, 0x00, 0x01, 0x18, 0x00] =
      .unknown ⟨⟨0x30, 253, 0, 253, false, []⟩, 0x0118⟩ := by
  decide

/-- The dropped frames K2b, K2c, F7, F9, F10, F11 and one payload byte too many (R186). -/
theorem test_decode_dropped :
    decode Config.reference [0x00, 0x01, 0xFD, 0xFE, 0xFD, 0x80, 0x00, 0x01, 0x02, 0x00] =
      .dropped .lengthMismatch ∧
    decode Config.reference [0x00, 0x01, 0xFD, 0xFE, 0xFD, 0x80, 0x00, 0x01] = .dropped .shortFrame ∧
    decode cfgP2 [] = .dropped .shortFrame ∧
    decode cfgP2 (List.replicate 17 0) = .dropped .oddLength ∧
    decode cfgP2 (List.replicate 15 0 ++ [0x10]) = .dropped .badNibble ∧
    decode cfgP2 (List.replicate 14 0) = .dropped .shortFrame := by
  decide

theorem test_decode_oversized : decode cfgP2 (List.replicate 528 0) = .dropped .oversized := by
  decide +kernel

/-- K1, K3 and K4. -/
theorem test_encode :
    encode Config.reference (.assignAddress ⟨1, 253, 254, 253, true, [0]⟩) =
      [0xA5, 0x5A, 0xC3, 0x3C, 0x00, 0x01, 0xFD, 0xFE, 0xFD, 0x80, 0x00, 0x01, 0x01, 0x00] ∧
    encode cfgP2 (.assignAddress ⟨1, 253, 254, 253, false, [0]⟩) =
      [0xA5, 0x5A, 0xC3, 0x3C, 0x00, 0x00, 0x00, 0x01, 0x0F, 0x0D, 0x0F, 0x0E, 0x0F, 0x0D, 0x00, 0x00, 0x00,
        0x01, 0x00, 0x01, 0x00, 0x00, 0x3C, 0xC3, 0x5A, 0xA5] ∧
    encode cfgP2 (.setTransitionDuration ⟨0x0102, 253, 255, 253, false, [0x01, 0xF4]⟩) =
      [0xA5, 0x5A, 0xC3, 0x3C, 0x00, 0x01, 0x00, 0x02, 0x0F, 0x0D, 0x0F, 0x0F, 0x0F, 0x0D, 0x00, 0x00, 0x01,
        0x04, 0x00, 0x02, 0x00, 0x01, 0x0F, 0x04, 0x3C, 0xC3, 0x5A, 0xA5] := by
  decide

/-- The opcode table's word is the code alone (R131). -/
theorem test_table_words :
    decodeTableWord 16 0 = some (.reset ⟨0, 0, 255, 0, false, []⟩) ∧
    decodeTableWord 16 15 = some (.setDisplayColors ⟨0, 0, 255, 0, false, [0, 0, 0, 0, 0, 0]⟩) ∧
    decodeTableWord 16 27 = some (.saveConfig ⟨0, 0, 255, 0, false, []⟩) ∧
    decodeTableWord 16 28 = none ∧ decodeTableWord 8 0 = none := by
  decide

/-! ## The framer -/

/-- F2: a start pattern inside a capture restarts it. -/
theorem test_framer_restart :
    framerStep Config.reference ⟨⟨0x02, 0xA5, 0x5A, 0xC3⟩, 4, .capture, [0, 1, 2, 0xA5, 0x5A, 0xC3]⟩ 0x3C =
      ⟨⟨⟨0xA5, 0x5A, 0xC3, 0x3C⟩, 4, .capture, []⟩, some .frameRestarted, none⟩ := by
  decide

/-- F15: the end pattern in the window after three captured bytes is no end. -/
theorem test_framer_short_end :
    framerStep cfgP2 ⟨⟨0x5A, 0x3C, 0xC3, 0x5A⟩, 4, .capture, [0xC3, 0x5A]⟩ 0xA5 =
      ⟨⟨⟨0x3C, 0xC3, 0x5A, 0xA5⟩, 4, .capture, [0xC3, 0x5A, 0xA5]⟩, none, none⟩ := by
  decide

/-- Program 5 (R403): a P2 packet whose nibbles spell END_P2 is cut short and the rest is lost. -/
theorem test_framer_collision :
    (feed { cfgP2 with syncP2 := ⟨0x0A, 0x0B, 0x0C, 0x0D⟩ } Framer.reset
      [0x0A, 0x0B, 0x0C, 0x0D, 0x0D, 0x0C, 0x0B, 0x0A, 0x0F, 0x0D, 0x0F, 0x0F, 0x0F, 0x0D, 0x00, 0x00, 0x01,
        0x08, 0x00, 0x01, 0x0A, 0x00, 0x0D, 0x0C, 0x0B, 0x0A]).2 = [[]] := by
  decide

/-! ## One step of each instruction -/

/-- RESET and ASSIGN_ADDRESS at a node (R220, R222, R236). -/
theorem test_reset_and_assign :
    -- D1.
    seen (fun t => (t.node, t.txUp))
        (arriving .up [0x00, 0x10, 0xFD, 0xFF, 0xFD, 0x00, 0x00, 0x00, 0x00]
        (propagating { node0 with node := { node0.node with chainLength := 3 } })) =
      some (NodeRegs.reset 400, []) ∧
    -- D2: the ACK carries the new address.
    seen (fun t => (t.node.localAddress, t.node.chainState, t.node.probeArmed, t.txUp, t.pidCounter))
        (arriving .up [0x00, 0x11, 0xFD, 0xFE, 0xFD, 0x80, 0x00, 0x01, 0x01, 0x02] nodeU) =
      some (2, .assigned, false,
        wire [0x00, 0x05, 0x02, 0xFD, 0x02, 0x00, 0x00, 0x0A, 0x02, 0x00, 0x11], 6) ∧
    -- D3: 253 is refused without an ACK.
    seen (fun t => (t.node.localAddress, t.node.chainState, t.txUp, t.raised))
        (arriving .up [0x00, 0x12, 0xFD, 0xFE, 0xFD, 0x80, 0x00, 0x01, 0x01, 0xFD] nodeU) =
      some (254, .unassigned, [], [.badOperand .assignAddress]) := by
  decide +kernel

/-- ENABLE_PROPAGATION and SET_CHAIN_LENGTH (R223, R224, R261). -/
theorem test_enable_and_length :
    -- D6.
    seen (fun t => (t.node.propagationMode, t.txUp, t.txDown))
        (arriving .up [0x00, 0x15, 0xFD, 0x00, 0xFD, 0x80, 0x00, 0x02, 0x00] node0) =
      some (true,
        wire [0x00, 0x05, 0x00, 0xFD, 0x00, 0x00, 0x00, 0x0A, 0x02, 0x00, 0x15], []) ∧
    -- D7: a broadcast is never acknowledged.
    seen (fun t => (t.node.propagationMode, t.txUp))
        (arriving .up [0x00, 0x16, 0xFD, 0xFF, 0xFD, 0x80, 0x00, 0x02, 0x00] node0) =
      some (true, []) ∧
    -- D8.
    seen (fun t => (t.node.chainLength, t.txUp))
        (arriving .up [0x00, 0x17, 0xFD, 0xFF, 0xFD, 0x00, 0x00, 0x03, 0x01, 0x07] node0) =
      some (7, []) ∧
    -- D17b: a command from DOWN is ignored.
    seen (fun t => (t.node.chainLength, t.txUp))
        (arriving .down [0x00, 0x04, 0xFD, 0xFF, 0xFD, 0x00, 0x00, 0x03, 0x01, 0x09]
          node0) =
      some (0, []) := by
  decide +kernel

/-- START_BUS_MODE and END_BUS_MODE (R225, R226, R89). -/
theorem test_bus_mode :
    -- D9: without propagation bus mode stays off.
    seen (fun t => t.node.busMode)
        (arriving .up [0x00, 0x18, 0xFD, 0xFF, 0xFD, 0x00, 0x00, 0x04, 0x00] node0) =
      some false ∧
    -- D10: with propagation it is entered; the last byte was forwarded first.
    seen (fun t => (t.node.busMode, t.passThrough, t.txDown))
        (arriving .up [0x00, 0x19, 0xFD, 0xFF, 0xFD, 0x00, 0x00, 0x04, 0x00]
          (propagating node0)) =
      some (true, true, [0]) ∧
    -- D11.
    seen (fun t => (t.node.busMode, t.node.propagationMode, t.txDown))
        (arriving .up [0x00, 0x1A, 0xFD, 0xFF, 0xFD, 0x00, 0x00, 0x05, 0x00]
        { node0 with node := { node0.node with propagationMode := true, busMode := true } }) =
      some (false, true, []) := by
  decide +kernel

/-- ANNOUNCE at a node and at the commander (R228, R343). -/
theorem test_announce :
    -- D14: an armed node probes again, its timeout unchanged.
    seen (fun t => (t.node.probeStart, t.node.probeArmed, t.txDown))
        (arriving .down [0x00, 0x00, 0xFE, 0xFF, 0xFE, 0x00, 0x00, 0x06, 0x00]
          (armedNode (nodeAt cfgN 0 .assigned))) =
      some (300, true,
        wire [0x00, 0x05, 0x00, 0xFF, 0x00, 0x00, 0x00, 0x07, 0x00]) ∧
    -- C16: the head probe, not registered.
    seen (fun t => (t.cmdr.ringW, t.cmdr.proc, t.txDown))
        (arriving .down [0x00, 0x09, 0xFE, 0xFF, 0xFE, 0x00, 0x00, 0x06, 0x00]
          (boss cfgN)) =
      some (0, .idle,
        wire [0x00, 0x00, 0xFD, 0xFF, 0xFD, 0x00, 0x00, 0x07, 0x00]) := by
  decide +kernel

/-- PROBE: measurement and adoption (R227). -/
theorem test_probe :
    -- D12: the measurement answer.
    seen (fun t => (t.node.chainState, t.txUp, t.txDown))
        (arriving .up [0x00, 0x1B, 0xFD, 0x00, 0xFD, 0x00, 0x00, 0x07, 0x00] node0) =
      some (.assigned,
        wire [0x00, 0x05, 0x00, 0xFD, 0x00, 0x00, 0x00, 0x08, 0x02, 0x00, 0x1B], []) ∧
    -- D13: an address is adopted, the prober answered and the next node probed.
    seen (fun t => (t.node.localAddress, t.node.probeArmed, t.node.probeStart, t.txUp, t.txDown))
        (arriving .up [0x00, 0x1C, 0x01, 0xFF, 0x01, 0x00, 0x00, 0x07, 0x00]
          (nodeAt cfgN 254 .discovering)) =
      some (2, true, 400,
        wire [0x00, 0x05, 0x02, 0x01, 0x02, 0x00, 0x00, 0x08, 0x02, 0x00, 0x1C],
        wire [0x00, 0x06, 0x02, 0xFF, 0x02, 0x00, 0x00, 0x07, 0x00]) := by
  decide +kernel

/-- PROBE_RESPONSE (R229, R339). -/
theorem test_probe_response :
    -- D15.
    seen (fun t => (t.node.chainState, t.node.probeArmed))
        (arriving .down [0x00, 0x03, 0x01, 0x00, 0x01, 0x00, 0x00, 0x08, 0x02, 0x00, 0x07]
          (armedNode (nodeAt cfgN 0 .assigned))) =
      some (.relay, false) ∧
    -- R229: a broadcast is not addressed to the node.
    seen (fun t => (t.node.chainState, t.node.probeArmed))
        (arriving .down [0x00, 0x03, 0x01, 0xFF, 0x01, 0x00, 0x00, 0x08, 0x02, 0x00, 0x07]
          (armedNode (nodeAt cfgN 0 .assigned))) =
      some (.assigned, true) ∧
    -- R339 with R322: at the commander a PROBE_RESPONSE acknowledges the pid it carries.
    seen (fun t => t.cmdr.ring.head?)
        (arriving .down [0x00, 0x02, 0x00, 0xFD, 0x00, 0x00, 0x00, 0x08, 0x02, 0x00, 0x0B]
          (ringRegister 11 (boss Config.reference))) =
      some (some ⟨true, 11, true⟩) := by
  decide +kernel

/-- TERMINATOR_ANNOUNCE (R231, R340). -/
theorem test_terminator_announce :
    -- D16.
    seen (fun t => (t.node.propagationMode, t.node.chainLength, t.txUp))
        (arriving .down [0x00, 0x04, 0x01, 0xFF, 0x01, 0x00, 0x00, 0x09, 0x01, 0x02]
          (nodeAt cfgN 0 .relay)) =
      some (true, 2,
        wire [0x00, 0x05, 0x00, 0xFF, 0x00, 0x00, 0x00, 0x09, 0x01, 0x02]) ∧
    -- C11.
    seen (fun t => t.cmdr.chainLength)
        (arriving .down [0x00, 0x04, 0x02, 0xFD, 0x02, 0x00, 0x00, 0x09, 0x01, 0x05]
          (boss Config.reference)) =
      some 5 := by
  decide +kernel

/-- ACK, PANIC, READY_STATUS and TOUCH_STATE (R232, R339, R341, R342). -/
theorem test_responses :
    -- D17: a node ignores an ACK.
    seen (fun t => (t.node, t.txUp))
        (arriving .down [0x00, 0x04, 0x01, 0xFD, 0x01, 0x00, 0x00, 0x0A, 0x02, 0x00, 0x01]
          node0) =
      some (node0.node, []) ∧
    -- R322: the entry with the pid is acknowledged.
    seen (fun t => t.cmdr.ring.head?)
        (arriving .down [0x00, 0x00, 0x00, 0xFD, 0x00, 0x00, 0x00, 0x0A, 0x02, 0x01, 0x02]
          (ringRegister 0x0102 (boss Config.reference))) =
      some (some ⟨true, 0x0102, true⟩) ∧
    -- C12: the last panic wins.
    seen (fun t => (t.cmdr.panicValid, t.cmdr.panicHop))
        (arriving .down [0x00, 0x00, 0xFE, 0xFD, 0x06, 0x00, 0x00, 0x0B, 0x00]
          (latchPanic 4 (boss Config.reference))) =
      some (true, 6) ∧
    -- C13.
    seen (fun t => t.out)
        (arriving .down [0x00, 0x05, 0x01, 0xFD, 0x01, 0x00, 0x00, 0x0C, 0x00]
          (boss Config.reference)) =
      some [.hostReady 1] ∧
    -- C14.
    seen (fun t => t.out)
        (arriving .down [0x00, 0x05, 0x00, 0xFD, 0x00, 0x00, 0x00, 0x0D, 0x02, 0x01, 0xF4]
          (boss Config.reference)) =
      some [.hostTouch 0 [0x01, 0xF4]] ∧
    -- R132: bytes beyond the layout are ignored.
    seen (fun t => t.out)
        (arriving .down [0x00, 0x05, 0x00, 0xFD, 0x00, 0x00, 0x00, 0x0D, 0x03, 0x01, 0xF4, 0x09]
          (boss Config.reference)) =
      some [.hostTouch 0 [0x01, 0xF4]] := by
  decide +kernel

/-- The single-field render commands and SHOW (R270, R275 to R278, R280). -/
theorem test_single_field_render :
    -- D18.
    seen (fun t => t.out)
        (arriving .up [0x00, 0x20, 0xFD, 0x00, 0xFD, 0x00, 0x00, 0x0E, 0x01, 0x80] node0) =
      some [.renderSet (.brightness 128)] ∧
    -- D18c: too short, and not acknowledged.
    seen (fun t => (t.out, t.raised, t.txUp))
        (arriving .up [0x00, 0x22, 0xFD, 0x00, 0xFD, 0x80, 0x00, 0x0E, 0x00] node0) =
      some ([], [.shortPayload .setBrightness], []) ∧
    -- D23.
    seen (fun t => t.out)
        (arriving .up [0x00, 0x27, 0xFD, 0x00, 0xFD, 0x00, 0x00, 0x13, 0x01, 0x01] node0) =
      some [.renderSet (.transitionType 1)] ∧
    -- D24: big-endian.
    seen (fun t => t.out)
        (arriving .up [0x00, 0x28, 0xFD, 0x00, 0xFD, 0x00, 0x00, 0x14, 0x02, 0x00, 0xFA]
          node0) =
      some [.renderSet (.transitionDuration 250)] ∧
    -- D25.
    seen (fun t => t.out)
        (arriving .up [0x00, 0x29, 0xFD, 0x00, 0xFD, 0x00, 0x00, 0x15, 0x01, 0x00] node0) =
      some [.renderSet (.transitionInterpolation 0)] ∧
    -- D26.
    seen (fun t => t.out)
        (arriving .up [0x00, 0x2A, 0xFD, 0x00, 0xFD, 0x00, 0x00, 0x16, 0x01, 0xFF] node0) =
      some [.renderSet (.frameBlending 255)] ∧
    -- D28.
    seen (fun t => t.out)
        (arriving .up [0x00, 0x2C, 0xFD, 0xFF, 0xFD, 0x00, 0x00, 0x18, 0x00] node0) =
      some [.trigger] := by
  decide +kernel

/-- The multi-field render commands (R271 to R274, R279, R263). -/
theorem test_multi_field_render :
    -- D19.
    seen (fun t => (t.out, t.txUp))
        (arriving .up
          [0x00, 0x23, 0xFD, 0x00, 0xFD, 0x80, 0x00, 0x0F, 0x06, 0xFF, 0x00, 0x00, 0x00, 0x00, 0xFF] node0) =
      some ([.freeze true, .renderSet (.displayColorA ⟨255, 0, 0⟩), .renderSet (.displayColorB ⟨0, 0, 255⟩),
        .freeze false],
        wire [0x00, 0x05, 0x00, 0xFD, 0x00, 0x00, 0x00, 0x0A, 0x02, 0x00, 0x23]) ∧
    -- D20.
    seen (fun t => t.out)
        (arriving .up
          [0x00, 0x24, 0xFD, 0x00, 0xFD, 0x00, 0x00, 0x10, 0x06, 0x00, 0x00, 0x10, 0x00, 0x00, 0x10] node0) =
      some [.freeze true, .renderSet (.backgroundColorA ⟨0, 0, 16⟩), .renderSet (.backgroundColorB ⟨0, 0, 16⟩),
        .freeze false] ∧
    -- D21.
    seen (fun t => t.out)
        (arriving .up [0x00, 0x25, 0xFD, 0x00, 0xFD, 0x00, 0x00, 0x11, 0x04, 0xFF, 0xFF, 0xFF, 0x40]
          node0) =
      some [.freeze true, .renderSet (.backlightColor ⟨255, 255, 255⟩), .renderSet (.backlightBrightness 64),
        .freeze false] ∧
    -- D22.
    seen (fun t => t.out)
        (arriving .up [0x00, 0x26, 0xFD, 0x00, 0xFD, 0x00, 0x00, 0x12, 0x02, 0x01, 0x00]
          node0) =
      some [.freeze true, .renderSet (.displayGradient 1),
        .renderSet (.backgroundGradient 0), .freeze false] ∧
    -- D27.
    seen (fun t => t.out)
        (arriving .up [0x00, 0x2B, 0xFD, 0x00, 0xFD, 0x00, 0x00, 0x17, 0x01, 0x41] node0) =
      some [.freeze true, .renderSet (.glyph 65), .freeze false] := by
  decide +kernel

/-- TOUCH_READ, CALIBRATE_TOUCH and SAVE_CONFIG (R281 to R283, R287). -/
theorem test_touch_and_storage :
    -- D29: TOUCH_STATE, then the ACK.
    seen (fun t => (t.txUp, t.pidCounter))
        (arriving .up [0x00, 0x2D, 0xFD, 0x00, 0xFD, 0x80, 0x00, 0x19, 0x00] node0) =
      some (wire [0x00, 0x05, 0x00, 0xFD, 0x00, 0x00, 0x00, 0x0D, 0x02, 0x01, 0xF4] ++
        wire [0x00, 0x06, 0x00, 0xFD, 0x00, 0x00, 0x00, 0x0A, 0x02, 0x00, 0x2D], 7) ∧
    -- D30.
    seen (fun t => t.out)
        (arriving .up [0x00, 0x2E, 0xFD, 0x00, 0xFD, 0x00, 0x00, 0x1A, 0x02, 0x00, 0x64]
          node0) =
      some [.touchCalibrate [0x00, 0x64]] ∧
    -- D31.
    seen (fun t => t.out)
        (arriving .up [0x00, 0x2F, 0xFD, 0x00, 0xFD, 0x00, 0x00, 0x1B, 0x00] node0) =
      some [.storageSave] := by
  decide +kernel

/-! ## Other events -/

/-- An unknown code, bus mode, the completion edge and the panic request (R133, R91, R290, R235). -/
theorem test_node_events :
    -- D32: an unknown code has no effect and no ACK; the packet counts as heard (R370).
    seen (fun t => (t.out, t.txUp, t.node.lastUpRx))
        (arriving .up [0x00, 0x30, 0xFD, 0x00, 0xFD, 0x80, 0x00, 0x1C, 0x02, 0x01, 0x02]
          node0) =
      some ([], [], 400) ∧
    -- D34: in bus mode a byte from DOWN is not framed.
    seen (fun t => (t.node.chainLength, t.frDown.cap.length))
        (arriving .down [0x00, 0x04, 0x01, 0xFF, 0x01, 0x00, 0x00, 0x09, 0x01, 0x02]
        { nodeAt cfgN 0 .relay with node := { (nodeAt cfgN 0 .relay).node with busMode := true } }) =
      some (0, 9) ∧
    -- D35.
    seen (fun t => t.txUp)
        (facing .transitionComplete (nodeAt Config.reference 1 .assigned)) =
      some (wire [0x00, 0x05, 0x01, 0xFD, 0x01, 0x00, 0x00, 0x0C, 0x00]) ∧
    -- D36.
    seen (fun t => t.txUp)
        (facing (.panicRequest 1) { nodeU with pidCounter := 0 }) =
      some (wire [0x00, 0x00, 0xFE, 0xFD, 0x01, 0x00, 0x00, 0x0B, 0x00]) := by
  decide +kernel

/-- The announce rule, the probe-timeout and the error indication (R233, R234, R370). -/
theorem test_node_timers :
    -- T1: at 100 ms the first ANNOUNCE.
    seen (fun t => (t.txUp, t.node.chainState, t.node.lastAnnounce))
        (facing (.tick 100) (State.resetWith Config.reference 0 true)) =
      some (wire [0x00, 0x00, 0xFE, 0xFF, 0xFE, 0x00, 0x00, 0x06, 0x00], .discovering, 100) ∧
    -- T1: at 99 ms nothing.
    seen (fun t => (t.txUp, t.node.chainState))
        (facing (.tick 99) (State.resetWith Config.reference 0 true)) =
      some ([], .unassigned) ∧
    -- T4.
    seen (fun t => (t.node.chainState, t.node.propagationMode, t.node.chainLength, t.txUp))
        (facing (.tick 700) { nodeAt cfgN 1 .assigned with
        node := { (nodeAt cfgN 1 .assigned).node with probeArmed := true, probeStart := 400 } }) =
      some (.terminating, true, 2,
        wire [0x00, 0x05, 0x01, 0xFF, 0x01, 0x00, 0x00, 0x09, 0x01, 0x02]) ∧
    -- T6.
    seen (fun t => t.node.errorStatus)
        (facing (.tick 5000) (State.resetWith Config.reference 0 true)) =
      some .neverAssigned ∧
    -- T8.
    seen (fun t => t.node.errorStatus)
        (facing (.tick 6000) { nodeAt Config.reference 3 .assigned with
        node := { (nodeAt Config.reference 3 .assigned).node with lastUpRx := 1000 } }) =
      some .assignedSilent := by
  decide +kernel

/-- C2: an older acknowledged entry with the same pid does not answer a new wait. -/
theorem test_ring_c2 :
    ((ringRegister 5 (ringRegister 7 (ringAck 5 (ringRegister 5 (boss Config.reference))))).cmdr.ring.take 3 =
      [⟨false, 5, true⟩, ⟨true, 7, false⟩, ⟨true, 5, false⟩]) := by
  decide

/-- The commander of C4, waiting for the answer of its packet 0 to node `d`. -/
def waiting (d : Byte) : State :=
  let s := ringRegister 0 (boss Config.reference)
  { s with
    pidCounter := 1
    cmdr := { s.cmdr with
      proc := .sendWait, phase := .sWait, waitPid := 0, waitStart := 1000, waitDest := d } }

/-- The acknowledged send and its failure (R338, R350, R323, R325). -/
theorem test_acknowledged_send :
    -- C4.
    seen (fun t => (t.txDown, t.cmdr.proc, t.out))
        (facing (.hostCall (.command (some 2) .setBrightness [0x80]
          true)) (boss Config.reference)) =
      some (wire [0x00, 0x00, 0xFD, 0x02, 0xFD, 0x80, 0x00, 0x0E, 0x01, 0x80], .sendWait, []) ∧
    -- C5.
    seen (fun t => (t.out, t.txDown))
        (facing (.hostCall .begin) (waiting 2)) =
      some ([.hostResult .begin false], []) ∧
    -- C6.
    seen (fun t => (t.cmdr.proc, t.out, t.raised))
        (facing (.tick 1049) (waiting 2)) =
      some (.sendWait, [], []) ∧
    -- C7.
    seen (fun t => (t.raised, t.out, t.cmdr.recA, t.txDown))
        (facing (.tick 1050) (waiting 2)) =
      some ([.ackTimeout 0], [.hostResult .command false], 2,
        wire [0x00, 0x01, 0xFD, 0xFE, 0xFD, 0x80, 0x00, 0x01, 0x01, 0x02]) ∧
    -- C8: node 0 has no node before it.
    seen (fun t => (t.cmdr.panicHop, t.cmdr.recA))
        (facing (.tick 1050) (waiting 0)) =
      some (254, 0) := by
  decide +kernel

/-- Recovery at the ends of the address space, and host calls (R334, R335, R352, R338). -/
theorem test_recovery_and_host_calls :
    -- C9: after 252 no address is assignable.
    seen (fun t => (t.cmdr.phase, t.txDown))
        (facing (.tick 1001) (latchPanic 252 (boss Config.reference))) =
      some (.mWait, wire [0x00, 0x00, 0xFD, 0x00, 0xFD, 0x00, 0x00, 0x07, 0x00]) ∧
    -- C10.
    seen (fun t => (t.cmdr.phase, t.txDown))
        (facing (.tick 1001) (latchPanic 253 (boss Config.reference))) =
      some (.raWait,
        wire [0x00, 0x00, 0xFD, 0xFE, 0xFD, 0x80, 0x00, 0x01, 0x01, 0x00]) ∧
    -- C18.
    seen (fun t => (t.out, t.txDown))
        (facing (.hostCall (.setString [0x41, 0x42]))
        { boss Config.reference with cmdr := { CommanderRegs.reset with chainLength := 2 } }) =
      some ([.hostResult .setString true],
        wire [0x00, 0x00, 0xFD, 0x00, 0xFD, 0x00, 0x00, 0x17, 0x01, 0x41] ++
        wire [0x00, 0x01, 0xFD, 0x01, 0xFD, 0x00, 0x00, 0x17, 0x01, 0x42]) ∧
    -- C19: under P2 ENABLE_PROPAGATION is not awaited.
    seen (fun t => (t.out, t.cmdr.proc))
        (facing (.hostCall (.command (some 0) .enablePropagation [] true)) (boss cfgP2)) =
      some ([.hostResult .command true], .idle) := by
  decide +kernel

/-- The opcode table's word is executed by the very next step (notes/assumptions/14.md). -/
theorem test_fetch :
    -- The opcode table's word is executed by the very next step (notes/assumptions/14.md).
    seen (fun t => (t.out, t.inputs))
        (State.withFetchWord State.reset 16 24) =
      some ([.trigger], []) := by
  decide +kernel

/-! ## A case for each statement that has hypotheses

Each theorem meets the hypotheses of the statement it is named after, at the ends of the ranges its clauses
speak of. -/

/-- The longest payload, asking for an ACK. -/
def longest : Body := ⟨0xFFFF, 255, 255, 255, true, List.replicate 255 255⟩

/-- The same, as P2 can carry it. -/
def longestP2 : Body := { longest with ack := false }

/-- Whether an agent goes on. -/
def goesOn (s : State) : Bool :=
  match step s with
  | .next _ => true
  | _ => false

theorem goesOn_next {s : State} (h : goesOn s = true) : ∃ t, step s = .next t := by
  unfold goesOn at h
  split at h
  · exact ⟨_, by assumption⟩
  · exact absurd h (by decide)

/-- A pattern that stands nowhere but at the front is found at the front only. -/
theorem only_at_front {x w a z : List Byte} (hw : 0 < w.length)
    (h : ∀ n < x.length, n ≠ 0 → (x.drop n).take w.length ≠ w) (e : x = a ++ w ++ z) : a = [] := by
  by_contra ha
  have ha : 0 < a.length := List.length_pos_iff.mpr ha
  refine h a.length (by rw [e]; simp; omega) (by omega) ?_
  simp [e]

theorem witness_DecodeOfEncodedInstruction :
    CmdCodes.reference.wf = true ∧ Instr.wf .p1 (.calibrateTouch longest) = true ∧
      Instr.wf .p2 (.calibrateTouch longestP2) = true := by
  decide +kernel

theorem witness_P1InstructionSurvivesTheWire :
    Config.reference.profile = .p1 ∧ Config.reference.codes.wf = true ∧
      Instr.wf .p1 (.calibrateTouch longest) = true ∧
      ∀ a z : List Byte, Config.reference.syncP1.toList ++
          frameBody Config.reference ((Instr.calibrateTouch longest).packet Config.reference) =
        a ++ Config.reference.syncP1.toList ++ z → a = [] :=
  ⟨rfl, by decide, by decide +kernel, fun _ _ => only_at_front (by decide) (by decide +kernel)⟩

theorem witness_P2InstructionSurvivesTheWire :
    cfgP2.profile = .p2 ∧ cfgP2.codes.wf = true ∧ Instr.wf .p2 (.calibrateTouch longestP2) = true ∧
      (∀ b ∈ cfgP2.syncP2.toList, 0x0F < b.toNat) ∧ cfgP2.syncP2 ≠ cfgP2.syncP2.reverse ∧
      16 + 2 * (Instr.calibrateTouch longestP2).body.data.length + 4 = cfgP2.capMaxP2 := by
  exact ⟨rfl, by decide, by decide +kernel, by decide, by decide, by decide +kernel⟩

theorem witness_ReservedFlagBitsAreZeroAndIgnored :
    (0x00 : Byte).getLsbD 7 = (0x7F : Byte).getLsbD 7 ∧ (0x80 : Byte).getLsbD 7 = (0xFF : Byte).getLsbD 7 := by
  decide

/-- Lengths 15, 16, 17, 526 and 528 of a P2 frame, and nibbles 15 and 16; K5's frame, whose header byte 7 says
9, decodes the same where it says 0. -/
theorem witness_P2DecoderChecksAndReadsTheFields :
    decodeFrame .p2 (List.replicate 15 0) = .dropped .shortFrame ∧
    decodeFrame .p2 (List.replicate 17 16) = .dropped .oddLength ∧
    decodeFrame .p2 (List.replicate 16 16) = .dropped .badNibble ∧
    decodeFrame .p2 (List.replicate 16 15) = .packet ⟨⟨0xFFFF, 255, 255, 255, false, []⟩, 0xFFFF⟩ ∧
    decodeFrame .p2 (List.replicate 526 0) = .packet ⟨⟨0, 0, 0, 0, false, List.replicate 255 0⟩, 0⟩ ∧
    decodeFrame .p2 (List.replicate 528 0) = .dropped .oversized ∧
    (∀ b ∈ ([0x09, 0x00] : List Byte),
      decodeFrame .p2 [0x00, 0x01, 0x00, 0x00, 0x0F, 0x0D, 0x0F, 0x0F, 0x0F, 0x0D, 0x00, 0x00, 0x01, 0x08,
        0x00, b, 0x00, 0x01] = .packet ⟨⟨0x0100, 253, 255, 253, false, [1]⟩, 24⟩) := by
  decide +kernel

/-- Lengths 8, 9 and 10 of a P1 frame, and the lengths its ninth byte gives. -/
theorem witness_P1DecoderReadsTheFields :
    (List.replicate 8 (0 : Byte)).length < 9 ∧
    (let c : List Byte := List.replicate 9 0; 9 ≤ c.length ∧ c.length = 9 + (c.getD 8 0).toNat) ∧
    (let c : List Byte := List.replicate 10 0; 9 ≤ c.length ∧ c.length ≠ 9 + (c.getD 8 0).toNat) ∧
    (let c : List Byte := List.replicate 264 255; 9 ≤ c.length ∧ c.length = 9 + (c.getD 8 0).toNat) := by
  decide +kernel

/-- A framer with a capture of `n` zeros, its window `w`. -/
def capturing (n : Nat) (w : Pattern) : Framer := ⟨w, 4, .capture, List.replicate n 0⟩

/-- The byte that completes the start pattern, in CAPTURE and in HUNT. -/
theorem witness_StartPatternAlwaysWins :
    (let f := capturing 8 ⟨0, 0xA5, 0x5A, 0xC3⟩
     (f.slide 0x3C).atStart Config.reference = true ∧ f.fstate = .capture) ∧
    (let f : Framer := ⟨⟨0, 0xA5, 0x5A, 0xC3⟩, 3, .hunt, []⟩
     (f.slide 0x3C).atStart Config.reference = true ∧ f.fstate = .hunt) := by
  decide

/-- Captures that the next byte completes at 9 and at 264 bytes, and one that it does not. -/
theorem witness_P1FrameCompletesByLength :
    Config.reference.profile = .p1 ∧
    (let f := capturing 8 ⟨0, 0, 0, 0⟩
     f.fstate = .capture ∧ f.cap.length < 264 ∧ (f.slide 0).atStart Config.reference = false ∧
      (f.cap ++ [0]).length = 9 ∧ ((f.cap ++ [0]).getD 8 0).toNat = 0 ∧
      (f.cap ++ [1]).length ≠ 9 + ((f.cap ++ [1]).getD 8 0).toNat) ∧
    (let f : Framer := ⟨⟨0, 0, 0, 0⟩, 4, .capture, List.replicate 263 255⟩
     f.fstate = .capture ∧ f.cap.length < 264 ∧ (f.slide 255).atStart Config.reference = false ∧
      (f.cap ++ [255]).length = 9 + ((f.cap ++ [255]).getD 8 0).toNat) ∧
    (let f := capturing 0 Pattern.reference
     f.fstate = .capture ∧ f.cap.length < 264 ∧ (f.slide 0).atStart Config.reference = false ∧
      ¬9 ≤ (f.cap ++ [0]).length) := by
  decide +kernel

/-- The end pattern after 3 and after 4 captured bytes, and no end pattern. -/
theorem witness_P2FrameCompletesAtTheEndPattern :
    cfgP2.profile = .p2 ∧
    (let f := capturing 3 ⟨0, 0x3C, 0xC3, 0x5A⟩
     f.fstate = .capture ∧ f.cap.length ≠ cfgP2.capMaxP2 ∧ (f.slide 0xA5).atStart cfgP2 = false ∧
      (f.slide 0xA5).win = cfgP2.syncP2.reverse ∧ 4 ≤ (f.cap ++ [0xA5]).length) ∧
    (let f := capturing 2 ⟨0, 0x3C, 0xC3, 0x5A⟩
     f.fstate = .capture ∧ f.cap.length ≠ cfgP2.capMaxP2 ∧ (f.slide 0xA5).atStart cfgP2 = false ∧
      (f.slide 0xA5).win = cfgP2.syncP2.reverse ∧ ¬4 ≤ (f.cap ++ [0xA5]).length) ∧
    (let f := capturing 529 ⟨0, 0, 0, 0⟩
     f.fstate = .capture ∧ f.cap.length ≠ cfgP2.capMaxP2 ∧ (f.slide 0).atStart cfgP2 = false ∧
      (f.slide 0).win ≠ cfgP2.syncP2.reverse) := by
  decide +kernel

theorem witness_FramerHuntsAndOverflows :
    (Framer.reset.slide 0x3C).atStart Config.reference = false ∧ Framer.reset.fstate = .hunt ∧
    (let f := capturing 264 ⟨0, 0, 0, 0⟩
     (f.slide 0).atStart Config.reference = false ∧ f.fstate = .capture ∧
      f.cap.length = capMax Config.reference) ∧
    (let f := capturing 530 ⟨0, 0, 0, 0⟩
     (f.slide 0).atStart cfgP2 = false ∧ f.fstate = .capture ∧ f.cap.length = capMax cfgP2) := by
  decide +kernel

/-- A framer at reset, one with 8 captured bytes under P1 and a full one under P2. -/
theorem witness_FramerStepKeepsInvariant :
    FramerInv Config.reference Framer.reset ∧ FramerInv Config.reference (capturing 8 ⟨0, 0, 0, 0⟩) ∧
      FramerInv cfgP2 (capturing 530 ⟨0, 0, 0, 0⟩) := by
  decide +kernel

/-- A packet of 13 frame bytes. -/
def packet13 : Packet := ⟨⟨0, 0, 0, 0, false, []⟩, 0⟩

/-- The FIFO with 1011 bytes takes 13 more, with 1012 it does not. -/
theorem witness_SendEnqueuesWholeFrameOrNothing :
    Room { node0 with txUp := List.replicate 1011 0 } .up [packet13] ∧
      ¬Room { node0 with txUp := List.replicate 1012 0 } .up [packet13] := by
  unfold Room
  decide +kernel

theorem witness_FreshPacketIds :
    ({ node0 with pidCounter := 65535 }).cfg.profile = .p1 ∧ (nodeAt cfgP2 0 .assigned).cfg.profile = .p2 := by
  decide

/-- A command that asks for an ACK under P1, one acknowledged under P2, a broadcast and one that does not
ask. -/
theorem witness_AckRule :
    (let p : Body := ⟨0, 253, 252, 253, true, []⟩
     p.dest ≠ addrBroadcast ∧ node0.cfg.profile = .p1 ∧ p.ack = true) ∧
    (let p : Body := ⟨0, 253, 254, 253, false, [0]⟩
     p.dest ≠ addrBroadcast ∧ (nodeAt cfgP2 0 .assigned).cfg.profile = .p2 ∧
      CmdName.assignAddress ∈ cfgP2.ackCommandsP2) ∧
    (let p : Body := ⟨0, 253, 255, 253, true, []⟩
     p.dest = addrBroadcast) ∧
    (let p : Body := ⟨0, 253, 0, 253, false, []⟩
     p.ack = false ∧ node0.cfg.profile = .p1) := by
  decide

/-- A packet for an address, with a payload. -/
def toward (d : Byte) (data : List Byte) : Body := ⟨0x11, 253, d, 253, true, data⟩

/-- An agent whose packet arrived on a port. -/
def via (p : Port) (s : State) : State := { s with senderPort := p }

/-- The node at the highest address (R9). -/
def node252 : State := nodeAt Config.reference 252 .assigned

theorem witness_IgnoredPacketsChangeNothing :
    (node0.cfg.role = .node ∧ (toward 252 []).dest ≠ node0.node.localAddress ∧
      (toward 252 []).dest ≠ addrBroadcast) ∧
    (node252.cfg.role = .node ∧ (toward 252 [0]).dest = node252.node.localAddress ∧
      (toward 252 [0]).data.length < need 2 .ack ∧ (toward 252 (List.replicate 5 0)).data.length <
        need 2 .setDisplayColors) ∧
    ((boss Config.reference).cfg.role = .commander ∧ (toward 252 []).dest ≠ addrCommander ∧
      (toward 252 []).dest ≠ addrBroadcast ∧ (toward 253 [0]).dest = addrCommander ∧
      (toward 253 [0]).data.length < need 2 .ack ∧ (toward 253 []).data.length < need 2 .setCharacter) := by
  decide

theorem witness_IgnoredClasses :
    (∀ n ∈ [CmdName.ack, .panic, .readyStatus, .touchState], Passes n (toward 252 [0, 0]) node252) ∧
    (∀ n ∈ [CmdName.announce, .probeResponse, .terminatorAnnounce],
      Passes n (toward 255 [0, 0]) (via .up node252)) ∧ (via .up node252).senderPort = .up ∧
    (∀ n ∈ CmdName.all, Passes n (toward 255 [0, 0, 0, 0, 0, 0]) (via .down node252)) ∧
    (via .down node252).senderPort = .down ∧
    (∀ n ∈ CmdName.all, AtCommander n (toward 253 [0, 0, 0, 0, 0, 0]) (boss Config.reference)) := by
  unfold Passes AtCommander
  decide

/-- For every command of CLASS_CMD, a case at node 252 and one as a broadcast (the hypotheses of
ResetCommandResult, EnableAndLengthResults, BusModeResults, SingleFieldRenderCommands,
MultiFieldRenderCommands and TouchAndStorageCommands), with propagation off and on. -/
theorem witness_FromUp :
    (∀ n ∈ CmdName.all, FromUp n (toward 252 [0, 0, 0, 0, 0, 0]) (via .up node252) ∧
      FromUp n (toward 255 [0, 0, 0, 0, 0, 0]) (via .up (propagating node252))) ∧
    node252.node.propagationMode = false ∧ (propagating node252).node.propagationMode = true := by
  unfold FromUp Passes
  decide

/-- For every upstream message, a case at a node and, for those and the responses, one at the commander
(the hypotheses of AnnounceResult, ProbeResponseResult, TerminatorAnnounceResult and
ResponsesAtTheCommander). -/
theorem witness_FromDown :
    (∀ n ∈ [CmdName.announce, .probeResponse, .terminatorAnnounce],
      FromDown n (toward 252 [0, 0]) (via .down node252) ∧
      FromDown n (toward 255 [0, 0]) (via .down node252) ∧
      AtCommander n (toward 255 [0, 0]) (boss Config.reference)) ∧
    (∀ n ∈ [CmdName.ack, .panic, .readyStatus, .touchState],
      AtCommander n (toward 253 [0, 0]) (boss Config.reference)) := by
  unfold FromDown AtCommander Passes
  decide

theorem witness_AssignAddressResult :
    (let p := toward 254 [252]
     FromUp .assignAddress p (via .up nodeU) ∧ (p.data.getD 0 0).toNat ≤ 252) ∧
    (let p := toward 254 [253]
     FromUp .assignAddress p (via .up nodeU) ∧ 252 < (p.data.getD 0 0).toNat) := by
  unfold FromUp Passes
  decide

/-- A PROBE from an origin, to a destination. -/
def probeFrom (o d : Byte) : Body := ⟨0x1C, o, d, o, false, []⟩

/-- The measurement PROBE at node 252; adoption from 254, 253, 0 and 251; refusal of 252 and 255; and an
assigned node, one under COMMANDER and one probed at 254, where nothing happens. -/
theorem witness_ProbeResult :
    (FromUp .probe (probeFrom 253 252) (via .up node252) ∧ AddressInv node252.node ∧
      (probeFrom 253 252).dest = node252.node.localAddress ∧ node252.node.localAddress ≠ 254) ∧
    (let s := via .up (nodeAt cfgN 254 .discovering)
     (∀ o ∈ ([254, 253, 0, 251, 252, 255] : List Byte),
        FromUp .probe (probeFrom o 255) s ∧ (probeFrom o 255).dest = 255) ∧
      AddressInv s.node ∧ s.cfg.discoveryMode = .nodeToNode ∧ s.node.chainState = .discovering ∧
      (probeFrom 251 255).origin.toNat ≤ 251 ∧ (252 : Byte) = (probeFrom 251 255).origin + 1) ∧
    (FromUp .probe (probeFrom 1 255) (via .up (nodeAt cfgN 252 .assigned)) ∧
      (nodeAt cfgN 252 .assigned).node.chainState = .assigned) ∧
    (FromUp .probe (probeFrom 1 255) (via .up nodeU) ∧ AddressInv nodeU.node ∧
      nodeU.cfg.discoveryMode = .commander) ∧
    (FromUp .probe (probeFrom 1 254) (via .up nodeU) ∧ nodeU.node.localAddress = 254) := by
  unfold FromUp Passes
  refine ⟨?_, ?_, ?_, ?_, ?_⟩ <;> decide

/-- An armed node, one that is not, and the commander at length 0 and otherwise; in both modes. -/
theorem witness_AnnounceResult :
    (let s := via .down (armedNode (nodeAt cfgN 252 .assigned))
     FromDown .announce (probeFrom 254 255) s ∧ s.cfg.discoveryMode = .nodeToNode ∧
      s.node.chainState = .assigned ∧ s.node.probeArmed = true) ∧
    (let s := via .down node252
     FromDown .announce (probeFrom 254 255) s ∧ s.node.probeArmed = false) ∧
    (AtCommander .announce (probeFrom 254 255) (boss cfgN) ∧
      (boss cfgN).cfg.discoveryMode = .nodeToNode ∧ (boss cfgN).cmdr.chainLength = 0) ∧
    (AtCommander .announce (probeFrom 254 255) (boss Config.reference) ∧
      (boss Config.reference).cfg.discoveryMode ≠ .nodeToNode) := by
  unfold FromDown AtCommander Passes
  decide

/-- An armed node that is addressed, the same node and a broadcast, one that is not armed, and the
commander. -/
theorem witness_ProbeResponseResult :
    (let s := via .down (armedNode (nodeAt cfgN 252 .assigned))
     FromDown .probeResponse (toward 252 [0, 7]) s ∧ (toward 252 [0, 7]).dest = s.node.localAddress ∧
      s.node.chainState = .assigned ∧ s.node.probeArmed = true ∧
      FromDown .probeResponse (toward 255 [0, 7]) s ∧ (toward 255 [0, 7]).dest ≠ s.node.localAddress) ∧
    (let s := via .down node252
     FromDown .probeResponse (toward 252 [0, 7]) s ∧ s.node.probeArmed = false) ∧
    AtCommander .probeResponse (toward 253 [0, 7]) (boss Config.reference) := by
  unfold FromDown AtCommander Passes
  decide

theorem witness_TerminatorAnnounceResult :
    (let s := via .down (nodeAt cfgN 252 .relay)
     FromDown .terminatorAnnounce (toward 255 [253]) s ∧ s.node.chainState = .relay ∧
      s.node.propagationMode = false) ∧
    (let s := via .down (propagating (nodeAt cfgN 0 .relay))
     FromDown .terminatorAnnounce (toward 255 [2]) s ∧ s.node.chainState = .relay ∧
      s.node.propagationMode = true) ∧
    (let s := via .down (nodeAt cfgN 0 .terminating)
     FromDown .terminatorAnnounce (toward 255 [2]) s ∧ s.node.chainState ≠ .relay) ∧
    AtCommander .terminatorAnnounce (toward 255 [253]) (boss Config.reference) := by
  unfold FromDown AtCommander Passes
  decide

/-- The FIFO takes exactly the TOUCH_STATE and ACK frames (15 bytes each). -/
theorem witness_TouchReadAnswersThenAcks :
    (let s := { via .up node252 with txUp := List.replicate 994 0 }
     FromUp .touchRead (toward 252 []) s ∧ s.cfg.profile = .p1 ∧ (toward 252 []).ack = true ∧
      (toward 252 []).dest ≠ addrBroadcast ∧
      Room s .up [⟨⟨5, 252, 253, 252, false, [0x01, 0xF4]⟩, 13⟩, ⟨⟨6, 252, 253, 252, false, [0, 0x11]⟩, 10⟩]) := by
  unfold FromUp Passes Room
  decide +kernel

/-- The next byte completes a SHOW at a node that does not propagate, at one that does, with room for one byte
and without, and in bus mode; and a PANIC at the commander. -/
theorem witness_StepRunsTheDecodedInstruction :
    (∀ n ∈ [node252, propagating { node252 with txDown := List.replicate 1023 0 },
        propagating { node252 with txDown := List.replicate 1024 0 },
        { node252 with node := { node252.node with propagationMode := true, busMode := true } }],
      let s := arriving .up [0x00, 0x2C, 0xFD, 0xFF, 0xFD, 0x00, 0x00, 0x18, 0x00] n
      nextByte s = some (.up, 0) ∧
        nextInstr s = some (.up, .showCmd ⟨0x2C, 253, 255, 253, false, []⟩)) ∧
    (let s := arriving .down [0x00, 0x00, 0xFE, 0xFD, 0x06, 0x00, 0x00, 0x0B, 0x00] (boss Config.reference)
     nextByte s = some (.down, 0) ∧ nextInstr s = some (.down, .panic ⟨0, 254, 253, 6, false, []⟩)) := by
  decide +kernel

/-- One event of each kind that keeps the duties; a tick 2^31 - 1 ms after the last. -/
theorem witness_StepsGoOnUnderTheDuties :
    (∀ s ∈ [node0, facing (.rxByte .up 0) node0, facing (.txDone .up) { node0 with txUp := [0] },
        facing (.tick (400 + 0x7FFFFFFF)) node0, facing .transitionComplete node0,
        facing (.panicRequest 255) node0, facing (.externalReset 0) node0, facing (.touchLevel [1, 2]) node0,
        facing (.rxByte .down 0) (boss Config.reference),
        facing (.txDone .down) { boss Config.reference with txDown := [0] }],
      EnvDuty s) ∧
    EnvDuty (facing (.hostCall .begin) (boss Config.reference)) ∧
    EnvDuty (facing (.hostCall (.command (some 0) .calibrateTouch (List.replicate 255 0) true))
      (boss Config.reference)) := by
  refine ⟨?_, ⟨rfl, by simp [hostCommand]⟩, rfl, ?_⟩
  · simp [EnvDuty, facing, node0, nodeAt, State.resetWith, State.txq, Config.reference, boss]
  · intro d n data ack h
    simp only [hostCommand, Option.some.injEq, Prod.mk.injEq] at h
    rw [← h.2.2.1, List.length_replicate]

theorem witness_DiscardedBytesChangeNothing :
    (let s := facing (.rxByte .up 0) { node0 with txUp := [0] }
     nextByte s = some (.up, 0) ∧ s.cfg.rxDuringTx = .drop ∧ s.txq .up ≠ []) ∧
    (let s := facing (.rxByte .down 0) { node0 with node := { node0.node with busMode := true } }
     nextByte s = some (.down, 0) ∧ s.cfg.role = .node ∧ s.node.busMode = true ∧
      rxBlocked .down s = false) := by
  decide

/-- A configuration under P2 whose captures hold a frame that is too long (R186). -/
def cfgP2wide : Config := { cfgP2 with capMaxP2 := 600 }

/-- A node that propagates, with room for one byte and without, one that does not and one in bus mode; and the
commander: each receives a byte that is framed. -/
theorem witness_ReceivedByteIsForwardedAndFramed :
    (∀ n ∈ [node0, propagating { node0 with txDown := List.replicate 1023 0 },
        propagating { node0 with txDown := List.replicate 1024 0 },
        { node0 with node := { node0.node with propagationMode := true, busMode := true } }],
      let s := facing (.rxByte .up 0x5A) n
      nextByte s = some (.up, 0x5A) ∧ framesByte s .up = true ∧
        (framerStep s.cfg (s.framer .up) 0x5A).frame = none ∧
        (framerStep s.cfg (s.framer .up) 0x5A).event = none) ∧
    (let s := facing (.rxByte .down 0x5A) (boss Config.reference)
     nextByte s = some (.down, 0x5A) ∧ framesByte s .down = true) := by
  decide +kernel

/-- A byte that restarts a capture and one that overflows it. -/
theorem witness_ReceivedByte_events :
    (let s := facing (.rxByte .up 0x3C) { node0 with frUp := capturing 8 ⟨0, 0xA5, 0x5A, 0xC3⟩ }
     framesByte s .up = true ∧ (framerStep s.cfg (s.framer .up) 0x3C).frame = none ∧
      (framerStep s.cfg (s.framer .up) 0x3C).event = some .frameRestarted) ∧
    (let s := facing (.rxByte .up 0) { nodeAt cfgP2 0 .assigned with frUp := capturing 530 ⟨0, 0, 0, 0⟩ }
     framesByte s .up = true ∧ (framerStep s.cfg (s.framer .up) 0).frame = none ∧
      (framerStep s.cfg (s.framer .up) 0).event = some .captureOverflow) := by
  decide +kernel

/-- What the next byte on UP makes of the frame it completes, if it completes one. -/
def completes (s : State) : Option DecodeResult :=
  match nextByte s with
  | some (p, b) => (framerStep s.cfg (s.framer p) b).frame.map (decode s.cfg)
  | none => none

/-- Frames that the codec drops for each of its reasons, and frames of unknown codes from either port. -/
theorem witness_ReceivedByte_frames :
    (∀ q ∈ [(List.replicate 15 0, DropReason.shortFrame), (List.replicate 17 0, .oddLength),
        (List.replicate 16 16, .badNibble), (List.replicate 528 0, .oversized)],
      let s := arrivingP2 .up q.1 (propagating (nodeAt cfgP2wide 0 .assigned))
      framesByte s .up = true ∧ completes s = some (.dropped q.2)) ∧
    (∀ p ∈ [Port.up, .down],
      let s := arriving p [0x00, 0x30, 0xFD, 0x00, 0xFD, 0x80, 0x00, 0x1C, 0x02, 0x01, 0x02] node0
      framesByte s p = true ∧ completes s = some (.unknown ⟨⟨0x30, 253, 0, 253, true, [1, 2]⟩, 28⟩)) := by
  decide +kernel

/-- The latest tick allowed; the announce interval, the probe-timeout and their ends. -/
theorem witness_NodeTickRules :
    (let s := facing (.tick (400 + 0x7FFFFFFF)) node0
     s.inputs = [.tick (400 + 0x7FFFFFFF)] ∧ s.cfg.role = .node ∧ s.timeKnown = true ∧
      (400 + 0x7FFFFFFF - s.now).toNat < 2 ^ 31) ∧
    (let s := State.resetWith Config.reference 0 true
     s.node.chainState = .unassigned ∧
      s.cfg.discoveryIntervalMs.toNat ≤ (({ s with now := 100 }).now - s.node.lastAnnounce).toNat ∧
      ¬s.cfg.discoveryIntervalMs.toNat ≤ (({ s with now := 99 }).now - s.node.lastAnnounce).toNat) ∧
    (let s := armedNode (nodeAt cfgN 252 .assigned)
     s.cfg.discoveryMode = .nodeToNode ∧ s.node.chainState = .assigned ∧ s.node.probeArmed = true ∧
      s.cfg.probeTimeoutMult * s.cfg.discoveryIntervalMs.toNat ≤
        (({ s with now := 600 }).now - s.node.probeStart).toNat ∧
      ¬s.cfg.probeTimeoutMult * s.cfg.discoveryIntervalMs.toNat ≤
        (({ s with now := 599 }).now - s.node.probeStart).toNat) := by
  decide

theorem witness_PanicAndReadyPackets :
    node252.cfg.role = .node ∧ (facing (.panicRequest 255) node252).inputs = [.panicRequest 255] ∧
    (facing .transitionComplete node252).inputs = [.transitionComplete] ∧
    node252.cfg.forwardCompletion = true ∧ node252.node.localAddress ≠ 254 ∧
    nodeU.cfg.role = .node ∧ nodeU.node.localAddress = 254 := by
  decide

theorem witness_TransmissionTouchAndIdleSteps :
    (let s := facing (.txDone .down) { boss Config.reference with txDown := [1] }
     s.inputs = [.txDone .down] ∧ s.cfg.role = .commander ∧ s.txq .down = [1]) ∧
    (let s := facing (.txDone .up) node0
     s.inputs = [.txDone .up] ∧ s.cfg.role = .node ∧ s.txq .up = []) ∧
    (let s := facing (.touchLevel [1, 2]) node0
     s.inputs = [.touchLevel [1, 2]] ∧ [1, 2].length = s.cfg.touchStateLen) ∧
    (let s := facing (.tick (400 + 0x80000000)) node0
     s.inputs = [.tick (400 + 0x80000000)] ∧ s.timeKnown = true ∧
      2 ^ 31 ≤ (400 + 0x80000000 - s.now).toNat) ∧
    node0.inputs = [] := by
  decide

theorem witness_ExternalResetValues :
    (facing (.externalReset 7) (propagating node252)).inputs = [.externalReset 7] ∧
      (facing (.externalReset 7) (waiting 2)).inputs = [.externalReset 7] := by
  decide

/-- A ring at its last place, the pid registered before. -/
theorem witness_RingRegister :
    (let s := { ringRegister 5 (boss Config.reference) with
       cmdr := { (ringRegister 5 (boss Config.reference)).cmdr with ringW := 7 } }
     s.cmdr.ring.length = 8 ∧ s.cmdr.ring.head? = some ⟨true, 5, false⟩) := by
  decide

/-- `begin()` with the packet ids at their end and room for exactly the two frames; and in both modes and both
profiles. -/
theorem witness_BeginSendsResetAndFirstAssign :
    (let s := facing (.hostCall .begin)
       { boss Config.reference with pidCounter := 65535, txDown := List.replicate 997 0 }
     s.inputs = [.hostCall .begin] ∧ s.cfg.role = .commander ∧ s.cfg.profile = .p1 ∧
      s.cfg.discoveryMode = .commander ∧ s.cmdr.proc = .idle ∧
      Room s .down [⟨⟨65535, 253, 255, 253, false, []⟩, 0⟩, ⟨⟨0, 253, 254, 253, true, [0]⟩, 1⟩]) ∧
    (∀ cfg ∈ [Config.reference, cfgN, cfgP2, { cfgP2 with discoveryMode := .nodeToNode }],
      let s := facing (.hostCall .begin) (boss cfg)
      s.cfg.role = .commander ∧ s.cmdr.proc = .idle) := by
  unfold Room
  decide +kernel

/-- The commander of C4 in another procedure. -/
def pursuing (p : Proc) (ph : Phase) (i : Nat) : State :=
  { waiting 0 with cmdr := { (waiting 0).cmdr with proc := p, phase := ph, i := i } }

/-- A commander in a procedure's phase: at time 1049 it still waits, at 1050 the deadline has passed, and where
the answer has come it is answered. -/
def Pursues (p : Proc) (ph : Phase) (s : State) : Prop :=
  s.cfg.role = .commander ∧ s.cmdr.proc = p ∧ s.cmdr.phase = ph ∧
    (1050 - s.now).toNat < 2 ^ 31 ∧ StillWaiting s 1049 ∧ TimedOut s 1050 ∧ Answered (ringAck 0 s)

/-- Both phases of discovery at its first and its last address; ENABLE_PROPAGATION awaited under P1 and under a
P2 configuration that lists it, and not awaited under the reference's. -/
theorem witness_DiscoveryPhases :
    (∀ i ∈ [0, 252], Pursues .discover .aWait (pursuing .discover .aWait i) ∧
      Pursues .discover .eWait (pursuing .discover .eWait i)) ∧
    Config.reference.profile = .p1 ∧
    ¬(cfgP2.profile = .p1 ∨ .enablePropagation ∈ cfgP2.ackCommandsP2) ∧
    (let cfg := { cfgP2 with ackCommandsP2 := [.assignAddress, .enablePropagation] }
     cfg.wf = true ∧ .enablePropagation ∈ cfg.ackCommandsP2) := by
  unfold Pursues StillWaiting TimedOut Answered
  decide

/-- R331 under P2 and R332: an answered assignment draws ENABLE_PROPAGATION and, unawaited, the next
assignment; an answered ENABLE_PROPAGATION draws the next assignment. -/
theorem test_discovery_goes_on :
    seen (fun t => (t.cmdr.proc, t.cmdr.phase, t.cmdr.i))
        (facing (.tick 1001) (ringAck 0 { pursuing .discover .aWait 3 with
          cfg := { cfgP2 with role := .commander } })) = some (.discover, .aWait, 4) ∧
    seen (fun t => (t.cmdr.phase, t.cmdr.i, t.txDown))
        (facing (.tick 1001) (ringAck 0 (pursuing .discover .eWait 3))) =
      some (.aWait, 4, wire [0x00, 0x01, 0xFD, 0xFE, 0xFD, 0x80, 0x00, 0x01, 0x01, 0x04]) := by
  decide +kernel

/-- Hops 0, 251, 253 and 255. -/
theorem witness_PanicStartsRecovery :
    (∀ h ∈ ([0, 251] : List Byte), h.toNat ≤ 251) ∧ (∀ h ∈ ([253, 255] : List Byte), 253 ≤ h.toNat) ∧
    (∀ h ∈ ([0, 251, 253, 255] : List Byte),
      let s := facing (.tick 1001) (latchPanic h (boss Config.reference))
      s.inputs = [.tick 1001] ∧ s.cfg.role = .commander ∧ s.cfg.profile = .p1 ∧ s.cmdr.proc = .idle ∧
        s.cmdr.panicValid = true ∧ s.cmdr.panicHop = h ∧ s.timeKnown = true ∧
        (1001 - s.now).toNat < 2 ^ 31 ∧ Room s .down [⟨⟨0, 253, 254, 253, true, [252]⟩, 1⟩]) := by
  unfold Room
  decide

/-- The three phases of a recovery, the hops 0, 251, 252, 253 and 255, and an idle commander with and without a
latch. -/
theorem witness_RecoveryPhases :
    (∀ ph ∈ [Phase.raWait, .reWait, .mWait], Pursues .recover ph (pursuing .recover ph 252)) ∧
    (∀ h ∈ ([0, 251] : List Byte), h.toNat ≤ 251) ∧ (∀ h ∈ ([253, 255] : List Byte), 253 ≤ h.toNat) ∧
    (let s := facing (.tick 1001) (latchPanic 252 (boss Config.reference))
     s.inputs = [.tick 1001] ∧ s.cfg.role = .commander ∧ s.cmdr.proc = .idle ∧
      s.cmdr.panicValid = true ∧ s.cmdr.panicHop = 252 ∧ (1001 - s.now).toNat < 2 ^ 31) ∧
    (boss Config.reference).cmdr.proc = .idle ∧ (boss Config.reference).cmdr.panicValid = false ∧
    (pursuing .recover .mWait 253).cmdr.i = 253 ∧ (pursuing .recover .mWait 252).cmdr.i ≠ 253 := by
  unfold Pursues StillWaiting TimedOut Answered
  decide

/-- R335: the measurement goes on to the next address, and ends with the length where it is not answered. -/
theorem test_measurement :
    seen (fun t => (t.cmdr.phase, t.cmdr.i, t.txDown))
        (facing (.tick 1001) (ringAck 0 (pursuing .recover .mWait 3))) =
      some (.mWait, 4, wire [0x00, 0x01, 0xFD, 0x04, 0xFD, 0x00, 0x00, 0x07, 0x00]) ∧
    seen (fun t => (t.cmdr.proc, t.cmdr.chainLength, t.txDown))
        (facing (.tick 1050) (pursuing .recover .mWait 3)) =
      some (.idle, 3, wire [0x00, 0x01, 0xFD, 0xFF, 0xFD, 0x00, 0x00, 0x03, 0x01, 0x03]) := by
  decide +kernel

/-- The answer has come; the deadline has; one millisecond before it. -/
theorem witness_AcknowledgedSendNeverHangs :
    (let s := facing (.tick 1001) (ringAck 0 (waiting 0))
     s.inputs = [.tick 1001] ∧ s.cfg.role = .commander ∧ s.cmdr.proc = .sendWait ∧ s.cmdr.phase = .sWait ∧
      (1001 - s.now).toNat < 2 ^ 31 ∧
      ∃ e ∈ s.cmdr.ring, e.valid = true ∧ e.pid = s.cmdr.waitPid ∧ e.acked = true) ∧
    (∀ d ∈ ([0, 252] : List Byte),
     let s := waiting d
     s.cfg.role = .commander ∧ s.cmdr.proc = .sendWait ∧ s.cmdr.phase = .sWait ∧
      (∀ e ∈ s.cmdr.ring, e.valid = true → e.pid = s.cmdr.waitPid → e.acked = false) ∧
      (1050 - s.now).toNat < 2 ^ 31 ∧ s.cfg.ackTimeoutMs.toNat ≤ (1050 - s.cmdr.waitStart).toNat ∧
      (1049 - s.now).toNat < 2 ^ 31 ∧ (1049 - s.cmdr.waitStart).toNat < s.cfg.ackTimeoutMs.toNat) := by
  decide

/-- A call while a procedure runs, one that answers at once and one that leaves a procedure running. -/
theorem witness_HostCallsAnswerOnce :
    (facing (.hostCall .begin) (waiting 2)).cmdr.proc ≠ .idle ∧ (waiting 2).cfg.role = .commander ∧
    (boss Config.reference).cmdr.proc = .idle ∧
    seen (fun t => (t.cmdr.proc, t.out)) (facing (.hostCall .showOp) (boss Config.reference)) =
      some (.idle, [.hostResult .command true]) ∧
    seen (fun t => (t.cmdr.proc, t.out)) (facing (.hostCall .begin) (boss Config.reference)) =
      some (.discover, []) := by
  decide +kernel

/-- An acknowledged command to node 252, one to 253 (no node), one that is not awaited under P2, a payload of
255 bytes, and a string. -/
theorem witness_HostCommandSendsItsPacket :
    (let s := facing (.hostCall (.command (some 252) .setBrightness [0x80] true)) (boss Config.reference)
     s.cfg.role = .commander ∧ s.cmdr.proc = .idle ∧ s.cfg.profile = .p1 ∧
      hostCommand (.command (some 252) .setBrightness [0x80] true) = some (252, .setBrightness, [0x80], true) ∧
      (252 : Byte).toNat ≤ 252) ∧
    (hostCommand (.command (some 253) .setBrightness [0x80] true) =
      some (253, .setBrightness, [0x80], true) ∧ ¬(253 : Byte).toNat ≤ 252) ∧
    (CmdName.enablePropagation ∉ cfgP2.ackCommandsP2 ∧ CmdName.assignAddress ∈ cfgP2.ackCommandsP2) ∧
    (hostCommand (.calibrateTouch none (List.replicate 255 0)) =
      some (255, .calibrateTouch, List.replicate 255 0, false) ∧
      (List.replicate 255 (0 : Byte)).length ≤ 255) ∧
    (let s := facing (.hostCall (.setString [0x41, 0x42])) (boss Config.reference)
     s.inputs = [.hostCall (.setString [0x41, 0x42])] ∧ s.cfg.role = .commander ∧
      s.cmdr.proc = .idle) := by
  refine ⟨?_, by decide, by decide, by decide +kernel, by decide⟩
  exact ⟨rfl, rfl, rfl, rfl, by decide⟩

/-- A node that takes an address. -/
theorem witness_AddressInvariantKept :
    AddressInv nodeU.node ∧
      goesOn (arriving .up [0x00, 0x11, 0xFD, 0xFE, 0xFD, 0x80, 0x00, 0x01, 0x01, 0xFC] nodeU) = true := by
  decide +kernel

/-- A node that enters bus mode. -/
theorem witness_ModeInvariantKept :
    ModeInv (propagating node0).node ∧
      goesOn (arriving .up [0x00, 0x19, 0xFD, 0xFF, 0xFD, 0x00, 0x00, 0x04, 0x00] (propagating node0)) =
        true := by
  decide +kernel

/-- A node that would forward into a full FIFO, its framer one byte from a full capture. -/
theorem witness_BufferBoundsKept :
    (let s := facing (.rxByte .up 0)
       (propagating { nodeAt cfgP2 0 .assigned with
         txDown := List.replicate 1024 0, frUp := capturing 529 ⟨0, 0, 0, 0⟩ })
     FramerInv s.cfg s.frUp ∧ FramerInv s.cfg s.frDown ∧ FifoInv s ∧ goesOn s = true) := by
  decide +kernel

/-- The acknowledged send at its deadline, and discovery at the last address. -/
theorem witness_CommanderInvariantKept :
    (CommanderInv (waiting 252).cmdr ∧ goesOn (facing (.tick 1050) (waiting 252)) = true) ∧
    (CommanderInv (pursuing .discover .eWait 252).cmdr ∧
      goesOn (facing (.tick 1050) (pursuing .discover .eWait 252)) = true) :=
  ⟨⟨⟨rfl, rfl, fun _ => ⟨⟨true, 0, false⟩, by decide⟩, by decide⟩, by decide +kernel⟩,
    ⟨⟨rfl, .inr rfl, fun _ => ⟨⟨true, 0, false⟩, by decide⟩, by decide⟩, by decide +kernel⟩⟩

theorem witness_InvariantsHoldAtReset :
    Config.reference.wf = true ∧ cfgP2.wf = true ∧ ({ cfgP2 with capMaxP2 := 20 }).wf = true := by
  decide

/-- Each row of R212's table is taken by a step from a state that meets R213. -/
theorem witness_ChainStateTransitions :
    (AddressInv nodeU.node ∧
      seen (fun t => t.node.chainState) (facing (.tick 500) nodeU) = some .discovering) ∧
    (AddressInv (nodeAt cfgN 254 .discovering).node ∧
      seen (fun t => t.node.chainState)
        (arriving .up [0x00, 0x1C, 0xFB, 0xFF, 0xFB, 0x00, 0x00, 0x07, 0x00] (nodeAt cfgN 254 .discovering)) =
        some .assigned) ∧
    (AddressInv (nodeAt cfgN 0 .relay).node ∧
      seen (fun t => t.node.chainState)
        (arriving .up [0x00, 0x11, 0xFD, 0x00, 0xFD, 0x80, 0x00, 0x01, 0x01, 0xFC] (nodeAt cfgN 0 .relay)) =
        some .assigned) ∧
    (AddressInv (armedNode (nodeAt cfgN 0 .assigned)).node ∧
      seen (fun t => t.node.chainState)
        (arriving .down [0x00, 0x03, 0x01, 0x00, 0x01, 0x00, 0x00, 0x08, 0x02, 0x00, 0x07]
          (armedNode (nodeAt cfgN 0 .assigned))) = some .relay ∧
      seen (fun t => t.node.chainState) (facing (.tick 600) (armedNode (nodeAt cfgN 0 .assigned))) =
        some .terminating) ∧
    seen (fun t => t.node.chainState)
      (arriving .up [0x00, 0x10, 0xFD, 0xFF, 0xFD, 0x00, 0x00, 0x00, 0x00] (nodeAt cfgN 0 .relay)) =
      some .unassigned := by
  decide +kernel

/-- A node in bus mode. -/
def bussed : State := { propagating node0 with node := { (propagating node0).node with busMode := true } }

/-- Each of the writes is made by some step; `test_reset_and_assign`, `test_enable_and_length`,
`test_bus_mode` and `test_node_timers` show others. -/
theorem witness_WritersOfChainConfig :
    (nodeU.node.localAddress = 254 ∧
      seen (fun t => t.node.localAddress)
        (arriving .up [0x00, 0x11, 0xFD, 0xFE, 0xFD, 0x80, 0x00, 0x01, 0x01, 0xFC] nodeU) = some 252) ∧
    (bussed.node.propagationMode = true ∧ bussed.node.busMode = true ∧
      seen (fun t => (t.node.propagationMode, t.node.busMode))
        (arriving .up [0x00, 0x10, 0xFD, 0xFF, 0xFD, 0x00, 0x00, 0x00, 0x00] bussed) =
        some (false, false)) ∧
    (node0.node.propagationMode = false ∧
      seen (fun t => t.node.propagationMode)
        (arriving .up [0x00, 0x15, 0xFD, 0x00, 0xFD, 0x80, 0x00, 0x02, 0x00] node0) = some true) ∧
    (node0.node.chainLength = 0 ∧ seen (fun t => t.node.chainLength)
        (arriving .up [0x00, 0x17, 0xFD, 0xFF, 0xFD, 0x00, 0x00, 0x03, 0x01, 0x07] node0) = some 7) ∧
    (∀ now rest, (arriving .up [0x00, 0x15, 0xFD, 0x00, 0xFD, 0x80, 0x00, 0x02, 0x00] node0).inputs ≠
      .externalReset now :: rest) := by
  refine ⟨by decide +kernel, by decide +kernel, by decide +kernel, by decide +kernel, ?_⟩
  intro now rest h
  cases h

theorem witness_ConfigurationAndRolesStayApart :
    (goesOn (facing (.tick 500) node0) = true ∧ node0.cfg.role = .node) ∧
    (goesOn (facing (.tick 1050) (waiting 2)) = true ∧ (waiting 2).cfg.role = .commander) ∧
    ∀ now rest, (facing (.tick 500) node0).inputs ≠ .externalReset now :: rest := by
  refine ⟨by decide +kernel, by decide +kernel, ?_⟩
  intro now rest h
  cases h

theorem witness_FreezeIsLoweredWithinTheStep :
    node0.node.freeze = false ∧
      goesOn (arriving .up [0x00, 0x2B, 0xFD, 0x00, 0xFD, 0x00, 0x00, 0x17, 0x01, 0x41] node0) = true := by
  decide +kernel

theorem witness_EnablingCommandIsNotForwarded :
    (let s := arriving .up [0x00, 0x15, 0xFD, 0x00, 0xFD, 0x80, 0x00, 0x02, 0x00] node0
     s.cfg.role = .node ∧ s.node.propagationMode = false ∧ goesOn s = true ∧
      nextInstr s = some (.up, .enablePropagation ⟨0x15, 253, 0, 253, true, []⟩)) := by
  decide +kernel

/-- The links of a chain of two nodes. -/
theorem witness_LinksPairPorts :
    chainLink 2 .commander .down = some (.node 0, .up) ∧ chainLink 2 (.node 0) .down = some (.node 1, .up) ∧
    chainLink 2 (.node 1) .up = some (.node 0, .down) ∧ chainLink 2 (.node 1) .down = none ∧
    chainLink 2 (.node 0) .up = some (.commander, .down) := by
  decide

/-- The commander of a chain of two nodes has a byte to send. The nodes differ in what R393 leaves to each. -/
def chain2 : Chain :=
  let c := chainReset Config.reference
    [Config.reference, { Config.reference with ackTimeoutMs := 7, txFifoDepth := 534, rxDuringTx := .accept }]
  { c with commander := { c.commander with txDown := [0xA5, 0x5A] } }

theorem witness_TransmitMovesOneByte :
    chainWf chain2 = true ∧ chainAgent chain2 .commander = some chain2.commander ∧
    (chainAgent chain2 (.node 0)).isSome = true ∧ chain2.commander.txq .down = [0xA5, 0x5A] ∧
    chainLink chain2.nodes.length .commander .down = some (.node 0, .up) ∧
    (match transmit .commander .down chain2 with
      | .next c => decide (c.commander.txDown = [0x5A])
      | _ => false) = true := by
  decide +kernel

end Sys2Proof.Tests
end

section
/-! Obligation O56: no step changes the configuration (10_state.md R45), and neither role writes the other
role's registers (60_exceptions.md R371; notes/assumptions/16.md). Each part is a fact about every case of
`StepCase`. -/

namespace Sys2Proof.Machine

open Sys2Proof Host

/-! ## A node's rules write no commander register -/

@[simp] theorem nodeAssignAddress_cmdr (p : Body) (s : State) :
    (nodeAssignAddress p s).state.cmdr = s.cmdr := by
  unfold nodeAssignAddress; split <;> rfl

@[simp] theorem nodeStartBusMode_cmdr (s : State) : (nodeStartBusMode s).state.cmdr = s.cmdr := by
  unfold nodeStartBusMode; split <;> rfl

@[simp] theorem answerProbe_cmdr (p : Body) (s : State) : (answerProbe p s).cmdr = s.cmdr :=
  nodeSend_cmdr ..

@[simp] theorem probeDownstream_cmdr (s : State) : (probeDownstream s).cmdr = s.cmdr :=
  nodeSend_cmdr ..

@[simp] theorem adoptAddress_cmdr (p : Body) (a : Byte) (s : State) :
    (adoptAddress p a s).cmdr = s.cmdr := by simp [adoptAddress]

@[simp] theorem nodeProbe_cmdr (p : Body) (s : State) : (nodeProbe p s).state.cmdr = s.cmdr := by
  unfold nodeProbe
  split
  · exact answerProbe_cmdr p s
  · split
    · split
      · exact adoptAddress_cmdr ..
      · exact raise_cmdr ..
    · rfl

@[simp] theorem nodeAnnounce_cmdr (s : State) : (nodeAnnounce s).state.cmdr = s.cmdr := by
  unfold nodeAnnounce
  split
  · exact probeDownstream_cmdr s
  · rfl

@[simp] theorem nodeProbeResponse_cmdr (p : Body) (s : State) :
    (nodeProbeResponse p s).state.cmdr = s.cmdr := by
  unfold nodeProbeResponse; split <;> rfl

@[simp] theorem nodeTerminatorAnnounce_cmdr (p : Body) (s : State) :
    (nodeTerminatorAnnounce p s).state.cmdr = s.cmdr := by
  unfold nodeTerminatorAnnounce
  split
  · split
    · exact nodeSend_cmdr ..
    · rfl
  · rfl

@[simp] theorem nodeTouchRead_cmdr (p : Body) (s : State) : (nodeTouchRead p s).state.cmdr = s.cmdr :=
  nodeSend_cmdr ..

/-- At a node no instruction's rule writes a commander register: the rules that branch or send say so above,
the others write node registers and output events only. -/
@[simp] theorem nodeRule_cmdr (i : Instr) (s : State) : (nodeRule i s).state.cmdr = s.cmdr := by
  cases i with
  | assignAddress p => exact nodeAssignAddress_cmdr p s
  | startBusMode p => exact nodeStartBusMode_cmdr s
  | announce p => exact nodeAnnounce_cmdr s
  | probe p => exact nodeProbe_cmdr p s
  | probeResponse p => exact nodeProbeResponse_cmdr p s
  | terminatorAnnounce p => exact nodeTerminatorAnnounce_cmdr p s
  | touchRead p => exact nodeTouchRead_cmdr p s
  | _ => rfl

/-- At a node an executed instruction writes no commander register. -/
theorem exec_cmdr_of_node {i : Instr} {s t : State} (hr : s.cfg.role = .node) (h : exec i s = .next t) :
    t.cmdr = s.cmdr := by
  obtain rfl | rfl | ⟨-, -, -, -, ⟨-, -, rfl⟩ | ⟨-, rfl⟩⟩ | ⟨hc, -⟩ := exec_cases h
  · rfl
  · exact raise_cmdr ..
  · rw [ackIfRequested_cmdr, nodeRule_cmdr]
  · exact nodeRule_cmdr i s
  · rw [hr] at hc; cases hc

/-! ## A node's events without a packet -/

@[simp] theorem announceRule_cmdr (s : State) : (announceRule s).cmdr = s.cmdr := by
  unfold announceRule
  split
  · exact originate_cmdr ..
  · rfl

@[simp] theorem probeTimeoutRule_cmdr (s : State) : (probeTimeoutRule s).cmdr = s.cmdr := by
  unfold probeTimeoutRule
  split
  · exact nodeSend_cmdr ..
  · rfl

@[simp] theorem errorIndication_cmdr (s : State) : (errorIndication s).cmdr = s.cmdr := rfl

@[simp] theorem nodeTick_cmdr (s : State) : (nodeTick s).cmdr = s.cmdr := by simp [nodeTick]

@[simp] theorem nodeTransitionComplete_cmdr (s : State) : (nodeTransitionComplete s).cmdr = s.cmdr := by
  unfold nodeTransitionComplete
  split
  · exact nodeSend_cmdr ..
  · rfl

@[simp] theorem nodePanicRequest_cmdr (x : Byte) (s : State) : (nodePanicRequest x s).cmdr = s.cmdr :=
  originate_cmdr ..

@[simp] theorem nodeTransitionComplete_cfg (s : State) : (nodeTransitionComplete s).cfg = s.cfg := by
  unfold nodeTransitionComplete
  split
  · exact nodeSend_cfg ..
  · rfl

@[simp] theorem nodePanicRequest_cfg (x : Byte) (s : State) : (nodePanicRequest x s).cfg = s.cfg :=
  originate_cfg ..

/-! ## Reception -/

/-- A byte's forwarding and the beginning of a step change neither the configuration nor a commander
register. -/
theorem received_cfg_cmdr {s s1 : State} {p : Port} {b : Byte}
    (h : s.cfg.role = .node ∧ s1 = forwardReceived p b (beginEvent s) ∨
      s.cfg.role = .commander ∧ p = .down ∧ s1 = beginEvent s) : s1.cfg = s.cfg ∧ s1.cmdr = s.cmdr := by
  rcases h with ⟨-, rfl⟩ | ⟨-, -, rfl⟩ <;> simp

/-- The commander frames only bytes of its one port, DOWN (R40). -/
theorem port_eq_down_of_framesByte {s : State} {p : Port} (hr : s.cfg.role = .commander)
    (h : framesByte s p = true) : p = .down := by
  simp only [framesByte, hr, Bool.and_eq_true, decide_eq_true_eq] at h
  exact h.2

/-! ## A whole step -/

/-- No step changes the configuration (R45). -/
theorem step_cfg {s t : State} (h : step s = .next t) : t.cfg = s.cfg := by
  cases step_cases h with
  | idle => rfl
  | dropped => rfl
  | busDiscard => rfl
  | captured p b s1 _ _ _ h1 => rw [framed_cfg, (received_cfg_cmdr h1).1]
  | badFrame p b s1 r _ _ _ h1 => rw [raise_cfg, framed_cfg, (received_cfg_cmdr h1).1]
  | unknownCode p b s1 _ _ _ h1 => rw [noteUpstream_cfg, framed_cfg, (received_cfg_cmdr h1).1]
  | instr p b i t _ _ _ he => rw [(exec_keepsBuffers he).cfg, arrival_cfg]
  | txDone p b q rest => rw [emit_cfg, setTxq_cfg, beginEvent_cfg]
  | nodeTick now rest => rw [(keepsBuffers_nodeTick _).cfg, takeTime_cfg, beginEvent_cfg]
  | commanderTick now rest => rw [(keepsBuffers_commanderTick _).cfg, takeTime_cfg, beginEvent_cfg]
  | completion => rw [nodeTransitionComplete_cfg, beginEvent_cfg]
  | panicRequest x rest => rw [nodePanicRequest_cfg, beginEvent_cfg]
  | hostCall op rest t _ _ he => rw [(keepsBuffers_hostCall he).cfg, beginEvent_cfg]
  | externalReset => rfl
  | touchLevel => rfl

/-- At a node no step but an external reset writes a commander register. -/
theorem step_cmdr_of_node {s t : State} (h : step s = .next t)
    (hx : ∀ now rest, s.inputs ≠ .externalReset now :: rest) (hr : s.cfg.role = .node) :
    t.cmdr = s.cmdr := by
  cases step_cases h with
  | idle => rfl
  | dropped => rfl
  | busDiscard => rfl
  | captured p b s1 _ _ _ h1 => rw [framed_cmdr, (received_cfg_cmdr h1).2]
  | badFrame p b s1 r _ _ _ h1 => rw [raise_cmdr, framed_cmdr, (received_cfg_cmdr h1).2]
  | unknownCode p b s1 _ _ _ h1 => rw [noteUpstream_cmdr, framed_cmdr, (received_cfg_cmdr h1).2]
  | instr p b i t _ _ _ he => rw [exec_cmdr_of_node (by rw [arrival_cfg, hr]) he, arrival_cmdr]
  | txDone p b q rest => rw [emit_cmdr, setTxq_cmdr, beginEvent_cmdr]
  | nodeTick now rest => rw [nodeTick_cmdr, takeTime_cmdr, beginEvent_cmdr]
  | completion => rw [nodeTransitionComplete_cmdr, beginEvent_cmdr]
  | panicRequest x rest => rw [nodePanicRequest_cmdr, beginEvent_cmdr]
  | commanderTick now rest _ _ hc => rw [hr] at hc; cases hc
  | hostCall op rest t _ hc => rw [hr] at hc; cases hc
  | externalReset now rest hi => exact absurd hi (hx now rest)
  | touchLevel => rfl

/-- At the commander an executed instruction writes no node register. -/
theorem exec_node_of_commander {i : Instr} {s t : State} (hr : s.cfg.role = .commander)
    (h : exec i s = .next t) : t.node = s.node := by
  obtain rfl | rfl | ⟨hn, -⟩ | ⟨-, rfl⟩ := exec_cases h
  · rfl
  · exact raise_node ..
  · rw [hr] at hn; cases hn
  · exact commanderRule_node i s

/-- At the commander no step but an external reset writes a node register. Only bytes from UP are noted in
`last_up_rx` (R370), and the commander has no such port. -/
theorem step_node_of_commander {s t : State} (h : step s = .next t)
    (hx : ∀ now rest, s.inputs ≠ .externalReset now :: rest) (hr : s.cfg.role = .commander) :
    t.node = s.node := by
  cases step_cases h with
  | idle => rfl
  | dropped => rfl
  | busDiscard => rfl
  | captured p b s1 _ _ _ h1 => rw [framed_node, (received_node h1).1]
  | badFrame p b s1 r _ _ _ h1 => rw [raise_node, framed_node, (received_node h1).1]
  | unknownCode p b s1 _ hf _ h1 =>
    obtain rfl := port_eq_down_of_framesByte hr hf
    rw [noteUpstream, framed_node, (received_node h1).1]
  | instr p b i t _ hf _ he =>
    obtain rfl := port_eq_down_of_framesByte hr hf
    rw [exec_node_of_commander (by rw [arrival_cfg, hr]) he, arrival_node]
    rfl
  | txDone p b q rest => rw [emit_node, setTxq_node, beginEvent_node]
  | commanderTick now rest => rw [commanderTick_node, takeTime_node, beginEvent_node]
  | hostCall op rest t _ _ he => rw [hostCall_node he, beginEvent_node]
  | nodeTick now rest _ _ hn => rw [hr] at hn; cases hn
  | completion rest _ hn => rw [hr] at hn; cases hn
  | panicRequest x rest _ hn => rw [hr] at hn; cases hn
  | externalReset now rest hi => exact absurd hi (hx now rest)
  | touchLevel => rfl

/-- Settles O56: every case of a step keeps the configuration, and the cases a role can meet keep the other
role's registers. -/
theorem configurationAndRolesStayApart : Obligations.ConfigurationAndRolesStayApart := by
  intro s t h
  exact ⟨step_cfg h, fun hx => ⟨step_cmdr_of_node h hx, step_node_of_commander h hx⟩⟩

end Sys2Proof.Machine
end

section
/-! Obligation O15: `send` appends a whole frame where it fits and otherwise nothing (20_memory.md R88). The
statement's `Room` speaks of a list of packets; for one packet it is the test `send` makes, and the two
branches of `send` are then the two equations. -/

namespace Sys2Proof.Machine

open Sys2Proof Host

/-- Room for one packet is room for its frame, the test of R88. -/
@[simp] theorem room_singleton_iff (s : State) (p : Port) (pkt : Packet) :
    Room s p [pkt] ↔ (s.txq p).length + (encodePacket s.cfg pkt).length ≤ s.cfg.txFifoDepth := by
  simp [Room]

/-- `send` without room for the frame only raises TX_OVERFLOW (R88). -/
theorem send_of_not_room {p : Port} {pkt : Packet} {s : State}
    (h : ¬(s.txq p).length + (encodePacket s.cfg pkt).length ≤ s.cfg.txFifoDepth) :
    send p pkt s = raise (.txOverflow p) s := if_neg h

/-- Settles O15: one branch of `send` for each answer to the test for room; the counters left open are those
`raise` counts in. -/
theorem sendEnqueuesWholeFrameOrNothing : Obligations.SendEnqueuesWholeFrameOrNothing := by
  intro p pkt s
  rw [room_singleton_iff]
  exact ⟨send_of_room, fun h => ⟨_, send_of_not_room h⟩⟩

end Sys2Proof.Machine
end

section
/-! Obligations O9, O11, O12 and O13: the Byte Framer's step (40_framer.md R152 to R159). One equation says what
each branch of `framerStep` gives, and the obligations of one byte read them off; that the start pattern wins
from any framer rests on the window being the last four bytes received, whatever else the framer did with them. -/

namespace Sys2Proof.Machine

open Sys2Proof

/-! ## One equation for each branch of the step -/

/-- The byte that completes the start pattern begins an empty capture (R154). -/
theorem framerStep_of_atStart {cfg : Config} {f : Framer} {b : Byte} (hs : (f.slide b).atStart cfg = true) :
    framerStep cfg f b = ⟨{ f.slide b with fstate := .capture, cap := [] },
      if f.fstate = .capture then some .frameRestarted else none, none⟩ :=
  if_pos hs

/-- Any other byte in HUNT only slides the window (R158). -/
theorem framerStep_of_hunt {cfg : Config} {f : Framer} {b : Byte} (hs : (f.slide b).atStart cfg = false)
    (hf : f.fstate = .hunt) : framerStep cfg f b = ⟨f.slide b, none, none⟩ := by
  simp [framerStep, hs, hf]

/-- A byte that meets a full capture drops it (R159). -/
theorem framerStep_of_full {cfg : Config} {f : Framer} {b : Byte} (hs : (f.slide b).atStart cfg = false)
    (hf : f.fstate = .capture) (hc : f.cap.length = capMax cfg) :
    framerStep cfg f b = ⟨{ f.slide b with fstate := .hunt, cap := [] }, some .captureOverflow, none⟩ := by
  simp [framerStep, hs, hf, hc]

/-- A captured byte that completes a frame hands it over. -/
theorem framerStep_of_completed {cfg : Config} {f : Framer} {b : Byte} {c : List Byte}
    (hs : (f.slide b).atStart cfg = false) (hf : f.fstate = .capture) (hc : f.cap.length ≠ capMax cfg)
    (hd : completedFrame cfg (f.slide b).win (f.cap ++ [b]) = some c) :
    framerStep cfg f b = ⟨{ f.slide b with fstate := .hunt, cap := [] }, none, some c⟩ := by
  simp [framerStep, hs, hf, hc, hd]

/-- A captured byte that completes no frame is appended. -/
theorem framerStep_of_not_completed {cfg : Config} {f : Framer} {b : Byte}
    (hs : (f.slide b).atStart cfg = false) (hf : f.fstate = .capture) (hc : f.cap.length ≠ capMax cfg)
    (hd : completedFrame cfg (f.slide b).win (f.cap ++ [b]) = none) :
    framerStep cfg f b = ⟨{ f.slide b with cap := f.cap ++ [b] }, none, none⟩ := by
  simp [framerStep, hs, hf, hc, hd]

/-- CAP_MAX under P1 (R11). -/
theorem capMax_p1 {cfg : Config} (h : cfg.profile = .p1) : capMax cfg = 264 := by
  simp [capMax, h]

/-- CAP_MAX under P2 (R11). -/
theorem capMax_p2 {cfg : Config} (h : cfg.profile = .p2) : capMax cfg = cfg.capMaxP2 := by
  simp [capMax, h]

/-! ## The window over a sequence of bytes -/

/-- Feeding one byte is one step. -/
theorem feed_singleton (cfg : Config) (f : Framer) (b : Byte) :
    (feed cfg f [b]).1 = (framerStep cfg f b).framer := rfl

/-- Whatever a framer does with the bytes it is fed, its window slides over all of them (R153). -/
theorem feed_win (cfg : Config) (f : Framer) (bs : List Byte) :
    (feed cfg f bs).1.win = bs.foldl Pattern.slide f.win := by
  induction bs generalizing f with
  | nil => rfl
  | cons b bs ih => rw [feed, ih, (framerStep_window cfg f b).1, List.foldl_cons]

/-- Every byte fed counts in the window until it is full (R153). -/
theorem le_feed_winCount (cfg : Config) (f : Framer) (bs : List Byte) :
    min (f.winCount + bs.length) 4 ≤ (feed cfg f bs).1.winCount := by
  induction bs generalizing f with
  | nil => exact min_le_left ..
  | cons b bs ih =>
    have hrest := ih (framerStep cfg f b).framer
    rw [(framerStep_window cfg f b).2] at hrest
    simp only [feed, List.length_cons]
    omega

/-- The window holds the start pattern after a byte exactly when at least three bytes came before and the slid
window equals the pattern. -/
theorem slide_atStart_iff {cfg : Config} {f : Framer} {b : Byte} :
    (f.slide b).atStart cfg = true ↔ 3 ≤ f.winCount ∧ f.win.slide b = cfg.startPattern := by
  simp only [Framer.atStart, Bool.and_eq_true, decide_eq_true_eq]
  exact and_congr_left fun _ => by simp only [Framer.slide]; omega

/-- The framer after the byte that completes the start pattern depends on nothing that came before. -/
theorem framerStep_framer_of_atStart {cfg : Config} {f : Framer} {b : Byte}
    (hs : (f.slide b).atStart cfg = true) :
    (framerStep cfg f b).framer =
      { win := cfg.startPattern, winCount := 4, fstate := .capture, cap := [] } := by
  rw [framerStep_of_atStart hs]
  simp only [Framer.atStart, Bool.and_eq_true, decide_eq_true_eq] at hs
  obtain ⟨hcount, hwin⟩ := hs
  simp only [hcount, hwin]

/-- R154 from a framer in any state. The pattern's first three bytes may restart, complete or drop a capture; all
that matters of them is that the window then ends in them, so that the fourth byte completes the match. -/
theorem feed_startPattern (cfg : Config) (f : Framer) :
    (feed cfg f cfg.startPattern.toList).1 =
      { win := cfg.startPattern, winCount := 4, fstate := .capture, cap := [] } := by
  rcases hp : cfg.startPattern with ⟨b0, b1, b2, b3⟩
  have hsplit : Pattern.toList ⟨b0, b1, b2, b3⟩ = [b0, b1, b2] ++ [b3] := rfl
  have hcount : 3 ≤ (feed cfg f [b0, b1, b2]).1.winCount := by
    have hle := le_feed_winCount cfg f [b0, b1, b2]
    rw [show [b0, b1, b2].length = 3 from rfl] at hle
    omega
  have hwin : (feed cfg f [b0, b1, b2]).1.win.slide b3 = cfg.startPattern := by rw [feed_win, hp]; rfl
  rw [hsplit, feed_append, feed_singleton, ← hp]
  exact framerStep_framer_of_atStart (slide_atStart_iff.mpr ⟨hcount, hwin⟩)

/-! ## The obligations -/

/-- Settles O9: the four bytes by `feed_startPattern`, the byte that completes the match by its branch of the
step, in each of the two states. -/
theorem startPatternAlwaysWins : Obligations.StartPatternAlwaysWins := by
  refine ⟨feed_startPattern, fun cfg f b hs => ⟨fun hf => ?_, fun hf => ?_⟩⟩
  · rw [framerStep_of_atStart hs, if_pos hf]
  · rw [framerStep_of_atStart hs, if_neg (by simp [hf])]

/-- Settles O11: below CAP_MAX the byte is captured, and `completedFrame` is the test by length. -/
theorem p1FrameCompletesByLength : Obligations.P1FrameCompletesByLength := by
  intro cfg f b hp hf hlen hs
  have hc : f.cap.length ≠ capMax cfg := by rw [capMax_p1 hp]; exact hlen.ne
  have hd := completedFrame_p1 hp (f.slide b).win (f.cap ++ [b])
  exact ⟨fun h => framerStep_of_completed hs hf hc (hd.trans (if_pos h)),
    fun h => framerStep_of_not_completed hs hf hc (hd.trans (if_neg h))⟩

/-- Settles O12: below CAP_MAX the byte is captured, and `completedFrame` is the test by the end pattern. -/
theorem p2FrameCompletesAtTheEndPattern : Obligations.P2FrameCompletesAtTheEndPattern := by
  intro cfg f b hp hf hlen hs
  have hc : f.cap.length ≠ capMax cfg := by rwa [capMax_p2 hp]
  have hd := completedFrame_p2 hp (f.slide b).win (f.cap ++ [b])
  exact ⟨fun h => framerStep_of_completed hs hf hc (hd.trans (if_pos h)),
    fun h => framerStep_of_not_completed hs hf hc (hd.trans (if_neg h))⟩

/-- Settles O13: the branches of the step for HUNT and for a full capture. -/
theorem framerHuntsAndOverflows : Obligations.FramerHuntsAndOverflows :=
  fun _ _ _ hs => ⟨framerStep_of_hunt hs, framerStep_of_full hs⟩

end Sys2Proof.Machine
end

section
/-! Obligations O6 and O7: the two decoders of frames (41_codec.md R185, R186). The P1 decoder's equation is
`decodeP1_eq`; the P2 decoder gets one of the same kind, over the wire bytes, and its fields are read through
`byteAt_denibble`: logical byte `k` is the low nibbles of wire bytes `2k` and `2k+1` (R119). -/

namespace Sys2Proof

/-! ## Reading a byte sequence by places -/

/-- What follows the first `n` bytes is read byte by byte from place `n` on. -/
theorem drop_eq_map_byteAt (l : List Byte) (n : Nat) :
    l.drop n = (List.range (l.length - n)).map fun k => byteAt l (n + k) := by
  refine List.ext_getElem (by simp) fun k hk _ => ?_
  have hlt : n + k < l.length := by rw [List.length_drop] at hk; omega
  simp [byteAt, List.getElem?_eq_getElem hlt]

/-- Logical byte `k` of a sequence of whole pairs (R119). Beyond the end both sides are 0. -/
theorem byteAt_denibble :
    ∀ {c : List Byte}, c.length % 2 = 0 → ∀ k,
      byteAt (denibble c) k = joinNibbles (byteAt c (2 * k)) (byteAt c (2 * k + 1))
  | [], _, _ => by simp [denibble, byteAt, joinNibbles]
  | [_], h, _ => by simp at h
  | _ :: _ :: _, _, 0 => rfl
  | _ :: _ :: c, h, k + 1 => byteAt_denibble (c := c) ((Nat.add_mod_right ..).symm.trans h) k

/-! ## The P1 decoder -/

/-- In a frame of the length its ninth byte gives, the payload is all that follows the header (R112, R118). -/
theorem fieldsP1_of_length {c : List Byte} (h : c.length = 9 + (c.getD 8 0).toNat) :
    fieldsP1 c =
      { pid := c.getD 0 0 ++ c.getD 1 0, origin := c.getD 2 0, dest := c.getD 3 0,
        firstHop := c.getD 4 0, ack := (c.getD 5 0).getLsbD 7, cmd := c.getD 6 0 ++ c.getD 7 0,
        data := c.drop 9 } := by
  have hdata : (c.drop p1HeaderLen).take (byteAt c 8).toNat = c.drop 9 :=
    List.take_of_length_le (by rw [List.length_drop, h, p1HeaderLen, byteAt]; omega)
  rw [fieldsP1, hdata]
  rfl

/-- Settles O7: one branch of `decodeP1_eq` for each clause. -/
theorem p1DecoderReadsTheFields : Obligations.P1DecoderReadsTheFields := by
  intro c
  rw [decodeFrame, decodeP1_eq]
  refine ⟨fun hshort => if_pos hshort, fun hlen hne => ?_, fun hlen heq => ?_⟩
  · rw [if_neg hlen.not_gt, if_pos hne]
  · rw [if_neg hlen.not_gt, if_neg (not_not_intro heq), fieldsP1_of_length heq]

/-! ## The P2 decoder -/

/-- The P2 decoder (R186) with its checks made on the wire bytes and the header's lengths written out. -/
theorem decodeP2_eq (c : List Byte) :
    decodeP2 c =
      if c.length < 16 then .dropped .shortFrame
      else if c.length % 2 = 1 then .dropped .oddLength
      else if ∃ b ∈ c, 0x0F < b.toNat then .dropped .badNibble
      else if 255 < c.length / 2 - 8 then .dropped .oversized
      else .packet (fieldsP2 (denibble c)) := by
  simp only [decodeP2, denibble_length, List.any_eq_true, decide_eq_true_eq, p2HeaderWireLen,
    p2HeaderLogicalLen]

/-- The P2 fields over the wire bytes: each logical byte from its pair of wire bytes (R116, R118, R119). -/
theorem fieldsP2_denibble {c : List Byte} {l : Nat → Byte} (heven : c.length % 2 = 0)
    (hl : ∀ k, l k = joinNibbles (byteAt c (2 * k)) (byteAt c (2 * k + 1))) :
    fieldsP2 (denibble c) =
      { pid := l 0 ++ l 1, origin := l 2, dest := l 3, firstHop := l 4, ack := false,
        cmd := l 5 ++ l 6, data := (List.range (c.length / 2 - 8)).map fun k => l (8 + k) } := by
  have hbyte : ∀ k, byteAt (denibble c) k = l k := fun k => (byteAt_denibble heven k).trans (hl k).symm
  simp only [fieldsP2, p2HeaderLogicalLen, drop_eq_map_byteAt, denibble_length, hbyte, be16]

/-- Settles O6: a frame stops at one of the four checks of `decodeP2_eq` or passes them all; each of these
cases fixes the decoder's answer and with it every clause. -/
theorem p2DecoderChecksAndReadsTheFields : Obligations.P2DecoderChecksAndReadsTheFields := by
  intro c l hl
  rw [decodeFrame, decodeP2_eq]
  by_cases hshort : c.length < 16
  · rw [if_pos hshort]
    simp [hshort]
  rw [if_neg hshort]
  have hlen : 16 ≤ c.length := not_lt.mp hshort
  by_cases hodd : c.length % 2 = 1
  · rw [if_pos hodd]
    simp [hlen, hodd]
  rw [if_neg hodd]
  have heven : c.length % 2 = 0 := Nat.mod_two_ne_one.mp hodd
  by_cases hbad : ∃ b ∈ c, 0x0F < b.toNat
  · have hnot : ¬∀ b ∈ c, b.toNat ≤ 0x0F := by simpa using hbad
    rw [if_pos hbad]
    simp [hlen, heven, hbad, hnot]
  rw [if_neg hbad]
  have hnibbles : ∀ b ∈ c, b.toNat ≤ 0x0F := by simpa using hbad
  by_cases hover : 255 < c.length / 2 - 8
  · have hlong : 263 < c.length / 2 := by omega
    rw [if_pos hover]
    simp [hlen, heven, hbad, eq_true hnibbles, hover, hlong]
  · rw [if_neg hover, fieldsP2_denibble heven hl]
    simp [hlen, heven, hbad, hover]

end Sys2Proof
end

section
/-! Obligations O19 to O22, O24 to O26, O37 and O38: the Chain Protocol Engine (42_chain_protocol.md). What an
instruction's shared checks leave to do is said by `exec_fromUp`, `exec_fromDown` and `exec_atCommander`; what is
proved here is one equation for each rule, with its condition in the terms of the registers, and one for the
step that takes an event. Each obligation is an equation of the one kind applied to one of the other. -/

namespace Sys2Proof.Machine

open Sys2Proof Host

/-! ## A rule behind the shared checks -/

/-- A command of CLASS_CMD whose rule executes meets the ACK rule next (R260, R236). -/
theorem exec_fromUp_of_executed {i : Instr} {s t : State} (h : FromUp i.name i.body s)
    (hc : cmdClass i.name = .cmd) (ht : nodeRule i s = executed t) :
    exec i s = .next (ackIfRequested i.name i.body t) := by
  rw [exec_fromUp h hc, ht]; rfl

/-- A command of CLASS_CMD whose rule refuses its operand raises BAD_OPERAND and is not acknowledged (R236). -/
theorem exec_fromUp_of_refused {i : Instr} {s : State} (h : FromUp i.name i.body s)
    (hc : cmdClass i.name = .cmd) (ht : nodeRule i s = refusedOperand i.name s) :
    exec i s = .next (raise (.badOperand i.name) s) := by
  rw [exec_fromUp h hc, ht]; rfl

/-- A message of CLASS_UP_MSG is never acknowledged: what its rule gives is the result (R260). -/
theorem exec_fromDown_of_executed {i : Instr} {s t : State} (h : FromDown i.name i.body s)
    (hc : cmdClass i.name = .upMsg) (ht : nodeRule i s = executed t) : exec i s = .next t := by
  rw [exec_fromDown h hc, ht]; rfl

/-! ## The packets -/

/-- A node's own packet, field by field (R199, R200). -/
theorem nodeSend_eq (p : Port) (dest : Byte) (n : CmdName) (data : List Byte) (s : State) :
    nodeSend p dest n data s =
      send p
        { pid := (freshPid s).1, origin := s.node.localAddress, dest := dest,
          firstHop := s.node.localAddress, ack := false, cmd := s.cfg.codes.code n, data := data }
        (freshPid s).2 := rfl

/-- A commander's packet, field by field (R320). -/
theorem commanderSend_eq (dest : Byte) (n : CmdName) (data : List Byte) (ack : Bool) (s : State) :
    commanderSend dest n data ack s =
      send .down
        { pid := (freshPid s).1, origin := 253, dest := dest, firstHop := 253, ack := ack,
          cmd := s.cfg.codes.code n, data := data }
        (freshPid s).2 := rfl

/-! ## The rules of the chain commands -/

/-- An address that can be assigned is taken (R222). -/
theorem nodeAssignAddress_of_le {p : Body} (s : State) (h : (p.data.getD 0 0).toNat ≤ 252) :
    nodeAssignAddress p s = executed { s with node := { s.node with
      localAddress := p.data.getD 0 0, chainState := .assigned, probeArmed := false } } :=
  if_neg (Nat.not_lt.mpr h)

/-- An address above 252 is refused (R222). -/
theorem nodeAssignAddress_of_gt {p : Body} (s : State) (h : 252 < (p.data.getD 0 0).toNat) :
    nodeAssignAddress p s = refusedOperand .assignAddress s := if_pos h

/-- A propagating node enters bus mode (R225). -/
theorem nodeStartBusMode_of_propagating {s : State} (h : s.node.propagationMode = true) :
    nodeStartBusMode s = executed { s with node := { s.node with busMode := true } } := if_pos h

/-- START_BUS_MODE changes nothing at a node that does not propagate (R225). -/
theorem nodeStartBusMode_of_not_propagating {s : State} (h : s.node.propagationMode = false) :
    nodeStartBusMode s = executed s := if_neg (by simp [h])

/-! ## The rules of the messages from downstream -/

/-- The probe-timeout is armed (R228, R229, R234). -/
@[simp] theorem armed_iff (s : State) :
    armed s = true ↔ s.node.chainState = .assigned ∧ s.node.probeArmed = true := by
  simp [armed]

/-- ANNOUNCE from DOWN (R228). -/
theorem nodeAnnounce_eq (s : State) :
    nodeAnnounce s = executed
      (if s.cfg.discoveryMode = .nodeToNode ∧ s.node.chainState = .assigned ∧ s.node.probeArmed = true then
        probeDownstream s
      else s) := by
  simp only [nodeAnnounce, armed_iff, apply_ite executed]

/-- PROBE_RESPONSE from DOWN (R229). -/
theorem nodeProbeResponse_eq (p : Body) (s : State) :
    nodeProbeResponse p s = executed
      (if p.dest = s.node.localAddress ∧ s.node.chainState = .assigned ∧ s.node.probeArmed = true then
        { s with node := { s.node with probeArmed := false, chainState := .relay } }
      else s) := by
  simp only [nodeProbeResponse, armed_iff, apply_ite executed]

/-- TERMINATOR_ANNOUNCE at a relay that does not propagate (R231). -/
theorem nodeTerminatorAnnounce_of_relay (p : Body) {s : State} (hs : s.node.chainState = .relay)
    (hm : s.node.propagationMode = false) :
    nodeTerminatorAnnounce p s =
      executed (nodeSend .up addrBroadcast .terminatorAnnounce [p.data.getD 0 0]
        { s with node := { s.node with propagationMode := true, chainLength := p.data.getD 0 0 } }) := by
  rw [nodeTerminatorAnnounce, if_pos hs, if_pos hm]; rfl

/-- TERMINATOR_ANNOUNCE at a relay that propagates already (R231). -/
theorem nodeTerminatorAnnounce_of_propagating_relay (p : Body) {s : State}
    (hs : s.node.chainState = .relay) (hm : s.node.propagationMode = true) :
    nodeTerminatorAnnounce p s =
      executed { s with node := { s.node with chainLength := p.data.getD 0 0 } } := by
  rw [nodeTerminatorAnnounce, if_pos hs, if_neg (by simp [hm])]; rfl

/-- TERMINATOR_ANNOUNCE at a node that is no relay (R231). -/
theorem nodeTerminatorAnnounce_of_not_relay (p : Body) {s : State} (hs : s.node.chainState ≠ .relay) :
    nodeTerminatorAnnounce p s = executed s := if_neg hs

/-! ## The rules of a node's tick -/

/-- The states in which a node has no address (R227, R233). -/
@[simp] theorem unassignedState_iff (s : State) :
    unassignedState s = true ↔ s.node.chainState = .unassigned ∨ s.node.chainState = .discovering := by
  simp [unassignedState]

/-- The announce rule (R233); the packet leaves the registers it then writes as they were. -/
theorem announceRule_eq (s : State) :
    announceRule s =
      if (s.node.chainState = .unassigned ∨ s.node.chainState = .discovering) ∧
          s.cfg.discoveryIntervalMs.toNat ≤ (s.now - s.node.lastAnnounce).toNat then
        { originate .up addrNull addrBroadcast addrNull false .announce [] s with
          node := { s.node with lastAnnounce := s.now, chainState := .discovering } }
      else s := by
  simp only [announceRule, unassignedState_iff, elapsed, originate_node, originate_now]

/-- When the probe-timeout has passed (R234). -/
theorem probeTimedOut_iff (s : State) :
    probeTimedOut s = true ↔
      s.cfg.discoveryMode = .nodeToNode ∧ s.node.chainState = .assigned ∧ s.node.probeArmed = true ∧
        s.cfg.probeTimeoutMult * s.cfg.discoveryIntervalMs.toNat ≤ elapsed s s.node.probeStart := by
  simp only [probeTimedOut, Bool.and_eq_true, armed_iff, and_assoc, decide_eq_true_eq]

/-! ## A step with an event -/

/-- The state in which the next event is handled: it is taken, and the events of the step before are over. -/
theorem beginEvent_of_inputs {s : State} {e : Event} {rest : List Event} (h : s.inputs = e :: rest) :
    beginEvent s = { s with out := [], raised := [], inputs := rest } := by
  rw [beginEvent, h]; rfl

/-- A step handles the next event (R365). -/
theorem step_of_inputs {s : State} {e : Event} {rest : List Event} (h : s.inputs = e :: rest) :
    step s = handleEvent e (beginEvent s) := by
  rw [step, stepEvent, h]

/-- A tick that keeps the duty of R397 (a) runs a node's tick (R364). -/
theorem handleEvent_tick_node {s : State} {t : U32} (hr : s.cfg.role = .node)
    (ht : s.timeKnown = true → (t - s.now).toNat < 2 ^ 31) :
    handleEvent (.tick t) s = .next (nodeTick (takeTime t s)) := by
  have hduty : timeDutyBroken t s = false := by
    simpa only [timeDutyBroken, Bool.and_eq_false_imp, decide_eq_false_iff_not, Nat.not_le] using ht
  simp [handleEvent, tick, hduty, hr]

/-- `panic_request` at a node (R364). -/
theorem handleEvent_panicRequest_node {s : State} (x : Byte) (hr : s.cfg.role = .node) :
    handleEvent (.panicRequest x) s = .next (nodePanicRequest x s) := by
  simp [handleEvent, hr]

/-- `transition_complete` at a node (R364). -/
theorem handleEvent_transitionComplete_node {s : State} (hr : s.cfg.role = .node) :
    handleEvent .transitionComplete s = .next (nodeTransitionComplete s) := by
  simp [handleEvent, hr]

/-! ## The obligations -/

/-- Settles O19: RESET's rule executes with its seven writes. -/
theorem resetCommandResult : Obligations.ResetCommandResult :=
  fun _ _ h => exec_fromUp_of_executed h rfl rfl

/-- Settles O20: the two branches of ASSIGN_ADDRESS's rule, one executed and one refused. -/
theorem assignAddressResult : Obligations.AssignAddressResult :=
  fun _ s h =>
    ⟨fun hle => exec_fromUp_of_executed h rfl (nodeAssignAddress_of_le s hle),
      fun hgt => exec_fromUp_of_refused h rfl (nodeAssignAddress_of_gt s hgt)⟩

/-- Settles O21: both rules execute with their one write. -/
theorem enableAndLengthResults : Obligations.EnableAndLengthResults :=
  fun _ _ => ⟨fun h => exec_fromUp_of_executed h rfl rfl, fun h => exec_fromUp_of_executed h rfl rfl⟩

/-- Settles O22: START_BUS_MODE executes on both sides of its gate, END_BUS_MODE always. -/
theorem busModeResults : Obligations.BusModeResults :=
  fun _ _ =>
    ⟨fun h hm => exec_fromUp_of_executed h rfl (nodeStartBusMode_of_propagating hm),
      fun h hm => exec_fromUp_of_executed h rfl (nodeStartBusMode_of_not_propagating hm),
      fun h => exec_fromUp_of_executed h rfl rfl⟩

/-- Settles O24: the two branches of `nodeAnnounce_eq` at a node and of R343 at the commander. -/
theorem announceResult : Obligations.AnnounceResult := by
  intro p s
  refine ⟨fun h => ?_, fun h => ?_⟩
  · rw [exec_fromDown_of_executed (i := .announce p) h rfl (nodeAnnounce_eq s), probeDownstream,
      nodeSend_eq]
    exact ⟨fun hc => congrArg Outcome.next (if_pos hc), fun hc => congrArg Outcome.next (if_neg hc)⟩
  · rw [exec_atCommander (i := .announce p) h, commanderRule, commanderAnnounce, commanderSend_eq]
    exact ⟨fun hc => congrArg Outcome.next (if_pos hc), fun hc => congrArg Outcome.next (if_neg hc)⟩

/-- Settles O25: the two branches of `nodeProbeResponse_eq` at a node; the commander's rule is `ring_ack`. -/
theorem probeResponseResult : Obligations.ProbeResponseResult := by
  intro p s
  refine ⟨fun h => ?_, fun h => ?_⟩
  · rw [exec_fromDown_of_executed (i := .probeResponse p) h rfl (nodeProbeResponse_eq p s)]
    exact ⟨fun hc => congrArg Outcome.next (if_pos hc), fun hc => congrArg Outcome.next (if_neg hc)⟩
  · exact exec_atCommander h

/-- Settles O26: the three branches of TERMINATOR_ANNOUNCE's rule at a node; the commander takes the length. -/
theorem terminatorAnnounceResult : Obligations.TerminatorAnnounceResult := by
  intro p s
  refine ⟨fun h => ⟨fun hs hm => ⟨_, rfl, ?_⟩, fun hs hm => ?_, fun hs => ?_⟩, fun h => exec_atCommander h⟩
  · exact exec_fromDown_of_executed h rfl (nodeTerminatorAnnounce_of_relay p hs hm)
  · exact exec_fromDown_of_executed h rfl (nodeTerminatorAnnounce_of_propagating_relay p hs hm)
  · exact exec_fromDown_of_executed h rfl (nodeTerminatorAnnounce_of_not_relay p hs)

/-- Settles O37: the step's equation for a tick, then each rule on both sides of its condition. -/
theorem nodeTickRules : Obligations.NodeTickRules := by
  refine ⟨fun s t rest hi hr ht => ?_, fun s => ⟨fun hst hdue => ⟨_, rfl, ?_⟩, fun hnot => ?_⟩,
    fun s => ⟨fun hout => ⟨_, rfl, ?_⟩, fun hnot => ?_⟩, fun s => rfl⟩
  · rw [step_of_inputs hi, handleEvent_tick_node (s := beginEvent s) hr ht, beginEvent_of_inputs hi]; rfl
  · rw [announceRule_eq, if_pos ⟨hst, hdue⟩, originate_eq]; rfl
  · rw [announceRule_eq, if_neg hnot]
  · rw [probeTimeoutRule, if_pos ((probeTimedOut_iff s).mpr hout), nodeSend_eq]; rfl
  · rw [probeTimeoutRule, if_neg (mt (probeTimedOut_iff s).mp hnot)]

/-- Settles O38: the step's equation for each event, and the two branches of R290. -/
theorem panicAndReadyPackets : Obligations.PanicAndReadyPackets := by
  intro s s1 rest hr hs1
  have hr1 : s1.cfg.role = .node := by rw [hs1]; exact hr
  refine ⟨fun x hi => ?_, fun hi => ?_⟩
  · rw [step_of_inputs hi, beginEvent_of_inputs hi, ← hs1, handleEvent_panicRequest_node x hr1,
      nodePanicRequest, originate_eq, hs1]
    rfl
  · rw [step_of_inputs hi, beginEvent_of_inputs hi, ← hs1, handleEvent_transitionComplete_node hr1,
      nodeTransitionComplete, nodeSend_eq, hs1]
    exact ⟨fun hc => congrArg Outcome.next (if_pos hc), fun hc => congrArg Outcome.next (if_neg hc)⟩

end Sys2Proof.Machine
end

section
/-! Obligations O28, O29 and O30: the Command Dispatcher's render, touch and storage commands (43_dispatcher.md
sections 2 and 3). A single-field command's rule is `renderOne`, a multi-field command's `frozen`; each of the
two is one equation on the whole state, behind the checks and the ACK rule of `exec_fromUp_of_executed`. An
obligation then only names the requests of each command. -/

namespace Sys2Proof.Machine

open Sys2Proof Host

/-! ## The rules -/

/-- A single-field render command appends its one request (R60). -/
theorem renderOne_eq (r : RenderSet) (s : State) :
    renderOne r s = executed { s with out := s.out ++ [.renderSet r] } := rfl

/-- A multi-field command appends its requests, in order, between the two levels of `freeze`, and leaves that
register low (R263). -/
theorem frozen_eq (rs : List RenderSet) (s : State) :
    frozen rs s = executed { s with
      node := { s.node with freeze := false }
      out := s.out ++ (.freeze true :: rs.map .renderSet ++ [.freeze false]) } := by
  have hout : s.out ++ [.freeze true] ++ rs.map .renderSet ++ [.freeze false] =
      s.out ++ (.freeze true :: rs.map .renderSet ++ [.freeze false]) := by simp
  simp only [frozen, setFreeze, emitRenderSets, emit, hout]

/-- TOUCH_READ sends the reading of this moment to the command's origin (R281, R287). -/
theorem nodeTouchRead_eq (p : Body) (s : State) :
    nodeTouchRead p s = executed (send .up
      { pid := (freshPid s).1, origin := s.node.localAddress, dest := p.origin,
        firstHop := s.node.localAddress, ack := false, cmd := s.cfg.codes.code .touchState,
        data := s.touchLevel } (freshPid s).2) :=
  congrArg executed (nodeSend_eq .up p.origin .touchState s.touchLevel s)

/-! ## A render command behind the shared checks -/

/-- A single-field render command that passes the checks (R260, R60). -/
theorem exec_fromUp_of_renderOne {i : Instr} {s : State} (r : RenderSet) (h : FromUp i.name i.body s)
    (hc : cmdClass i.name = .cmd) (hi : nodeRule i = renderOne r) :
    exec i s = .next (ackIfRequested i.name i.body { s with out := s.out ++ [.renderSet r] }) :=
  exec_fromUp_of_executed h hc (hi ▸ renderOne_eq r s)

/-- A multi-field render command that passes the checks (R260, R263). -/
theorem exec_fromUp_of_frozen {i : Instr} {s : State} (rs : List RenderSet) (h : FromUp i.name i.body s)
    (hc : cmdClass i.name = .cmd) (hi : nodeRule i = frozen rs) :
    exec i s = .next (ackIfRequested i.name i.body { s with
      node := { s.node with freeze := false }
      out := s.out ++ (.freeze true :: rs.map .renderSet ++ [.freeze false]) }) :=
  exec_fromUp_of_executed h hc (hi ▸ frozen_eq rs s)

/-! ## The obligations -/

/-- Settles O28: five commands of one request each; SHOW's rule is the trigger alone. -/
theorem singleFieldRenderCommands : Obligations.SingleFieldRenderCommands := by
  intro p s
  refine ⟨fun h => ?brightness, fun h => ?transitionType, fun h => ?duration, fun h => ?interpolation,
    fun h => ?blending, fun h => ?trigger⟩
  case brightness => exact exec_fromUp_of_renderOne (.brightness (payloadByte p 0)) h rfl rfl
  case transitionType => exact exec_fromUp_of_renderOne (.transitionType (payloadByte p 0)) h rfl rfl
  case duration => exact exec_fromUp_of_renderOne (.transitionDuration (payloadWord p 0)) h rfl rfl
  case interpolation =>
    exact exec_fromUp_of_renderOne (.transitionInterpolation (payloadByte p 0)) h rfl rfl
  case blending => exact exec_fromUp_of_renderOne (.frameBlending (payloadByte p 0)) h rfl rfl
  case trigger => exact exec_fromUp_of_executed h rfl rfl

/-- Settles O29: the requests of each command, in the order of its rule. -/
theorem multiFieldRenderCommands : Obligations.MultiFieldRenderCommands := by
  intro p s
  refine ⟨fun h => ?displayColors, fun h => ?backgroundColors, fun h => ?backlight, fun h => ?gradient,
    fun h => ?character⟩
  case displayColors =>
    exact exec_fromUp_of_frozen
      [.displayColorA (payloadRgb p 0), .displayColorB (payloadRgb p 3)] h rfl rfl
  case backgroundColors =>
    exact exec_fromUp_of_frozen
      [.backgroundColorA (payloadRgb p 0), .backgroundColorB (payloadRgb p 3)] h rfl rfl
  case backlight =>
    exact exec_fromUp_of_frozen
      [.backlightColor (payloadRgb p 0), .backlightBrightness (payloadByte p 3)] h rfl rfl
  case gradient =>
    exact exec_fromUp_of_frozen
      [.displayGradient (payloadByte p 0), .backgroundGradient (payloadByte p 1)] h rfl rfl
  case character => exact exec_fromUp_of_frozen [.glyph (payloadByte p 0)] h rfl rfl

/-- Settles O30: TOUCH_READ's packet is `nodeTouchRead_eq`; the other two rules append their one request. -/
theorem touchAndStorageCommands : Obligations.TouchAndStorageCommands :=
  fun p s =>
    ⟨fun h => exec_fromUp_of_executed h rfl (nodeTouchRead_eq p s),
      fun h => exec_fromUp_of_executed h rfl rfl,
      fun h => exec_fromUp_of_executed h rfl rfl⟩

end Sys2Proof.Machine
end

section
/-! Obligation O41: the PendingAck ring's registration (44_commander.md, R321), entry by entry. -/

namespace Sys2Proof.Machine

open Sys2Proof Host

/-- R321 replaces an entry and adds none. -/
@[simp] theorem ringRegister_ring_length (pid : U16) (s : State) :
    (ringRegister pid s).cmdr.ring.length = s.cmdr.ring.length := by
  simp [ringRegister]

/-- R321: the new entry stands at `ring_w`. -/
theorem ringRegister_entry_at_ringW {s : State} (pid : U16) (h : s.cmdr.ring.length = 8) :
    (ringRegister pid s).cmdr.ring[s.cmdr.ringW.val]? = some ⟨true, pid, false⟩ :=
  List.getElem?_set_self (by rw [List.length_map, h]; exact s.cmdr.ringW.isLt)

/-- R321: every other place keeps its entry, made invalid when it held the same pid. -/
theorem ringRegister_entry_elsewhere {s : State} {j : Nat} (pid : U16) (hj : j ≠ s.cmdr.ringW.val) :
    (ringRegister pid s).cmdr.ring[j]? = s.cmdr.ring[j]?.map (clearPid pid) :=
  (List.getElem?_set_ne hj.symm).trans List.getElem?_map

/-- Settles O41: the ring of `ring_register`, split into the place at `ring_w` and the other places. (The
obligation's name in lower camel case is the model's function.) -/
theorem ringRegister_entries : Obligations.RingRegister := by
  intro s pid hlen
  refine ⟨(ringRegister pid s).cmdr.ring, rfl, (ringRegister_ring_length pid s).trans hlen,
    ringRegister_entry_at_ringW pid hlen, fun j e hj he => ?_⟩
  rw [ringRegister_entry_elsewhere pid hj, he]
  rfl

end Sys2Proof.Machine
end

section
/-! Obligation O40: the external reset (70_reset_and_hazards.md, R390), register group by register group. What
it leaves of the state before is the configuration. -/

namespace Sys2Proof.Machine

open Sys2Proof Host

/-- An external reset delivered as the next event is handled in that step, at either role (R390). -/
theorem step_externalReset {s : State} {now : U32} {rest : List Event}
    (h : s.inputs = .externalReset now :: rest) :
    step s = .next (externalReset now (beginEvent s)) := step_of_inputs h

@[simp] theorem externalReset_cfg (now : U32) (s : State) : (externalReset now s).cfg = s.cfg := rfl
@[simp] theorem externalReset_now (now : U32) (s : State) : (externalReset now s).now = now := rfl
@[simp] theorem externalReset_pidCounter (now : U32) (s : State) :
    (externalReset now s).pidCounter = 0 := rfl
@[simp] theorem externalReset_node (now : U32) (s : State) :
    (externalReset now s).node = NodeRegs.reset now := rfl
@[simp] theorem externalReset_cmdr (now : U32) (s : State) :
    (externalReset now s).cmdr = CommanderRegs.reset := rfl
@[simp] theorem externalReset_framer (now : U32) (s : State) (p : Port) :
    (externalReset now s).framer p = Framer.reset := by cases p <;> rfl
@[simp] theorem externalReset_txq (now : U32) (s : State) (p : Port) :
    (externalReset now s).txq p = [] := by cases p <;> rfl

/-- A framer at reset hunts and holds no byte (R390). -/
theorem framerReset_empty :
    Framer.reset.winCount = 0 ∧ Framer.reset.fstate = .hunt ∧ Framer.reset.cap = [] := ⟨rfl, rfl, rfl⟩

/-- The ring at reset has no valid entry (R390). -/
theorem valid_eq_false_of_mem_commanderReset_ring {e : RingEntry} (h : e ∈ CommanderRegs.reset.ring) :
    e.valid = false :=
  congrArg RingEntry.valid (List.eq_of_mem_replicate h)

/-- Settles O40: the reset's step, then the registers of both roles, the framers and FIFOs of each port, and
the ring. -/
theorem externalResetValues : Obligations.ExternalResetValues := by
  refine ⟨⟨rfl, rfl, rfl⟩, fun s now rest hi =>
    ⟨externalReset now (beginEvent s), step_externalReset hi, ?_⟩⟩
  have hport (p : Port) :
      ((externalReset now (beginEvent s)).framer p).winCount = 0 ∧
      ((externalReset now (beginEvent s)).framer p).fstate = .hunt ∧
      ((externalReset now (beginEvent s)).framer p).cap = [] ∧
      (externalReset now (beginEvent s)).txq p = [] := by
    simp [framerReset_empty]
  have hring : ∀ e ∈ CommanderRegs.reset.ring, e.valid = false :=
    fun _ => valid_eq_false_of_mem_commanderReset_ring
  simp only [externalReset_node, externalReset_cmdr]
  exact ⟨externalReset_cfg .., externalReset_now .., rfl, rfl, rfl, rfl, rfl, rfl, rfl, rfl, rfl, rfl, rfl,
    externalReset_pidCounter .., hport, rfl, rfl, hring, rfl, rfl, rfl⟩

end Sys2Proof.Machine
end

section
/-! Obligations O1, O4, O5 and O8: the wire formats (30_encoding.md) and the codec over them (41_codec.md). The
two decoders undo the two encoders (`decodeP1_bodyP1`, `decodeP2_bodyP2`); what is left for an instruction is
the lookup of its code. -/

namespace Sys2Proof

/-! ## Decoding what was encoded -/

/-- A well-formed instruction: the payload's bound, and no ACK request under P2 (R17). -/
theorem Instr.wf_iff (pr : Profile) (i : Instr) :
    i.wf pr = true ↔ i.body.data.length ≤ 255 ∧ (pr = .p1 ∨ i.body.ack = false) := by
  simp [Instr.wf, Body.wf]

/-- The decoder of a profile reads the bytes of its encoder as the packet (R198). -/
theorem decodeFrame_frameBody {cfg : Config} {p : Packet} (hlen : p.data.length ≤ 255)
    (hack : cfg.profile = .p1 ∨ p.ack = false) :
    decodeFrame cfg.profile (frameBody cfg p) = .packet p := by
  cases hp : cfg.profile with
  | p1 => simpa [decodeFrame, frameBody, hp] using decodeP1_bodyP1 hlen
  | p2 =>
    have hfalse : p.ack = false := hack.resolve_left (by simp [hp])
    simpa [decodeFrame, frameBody, hp] using decodeP2_bodyP2 hlen hfalse

/-- A frame of a known code is the instruction of that code (R260). -/
theorem decode_of_packet {cfg : Config} {c : List Byte} {p : Packet} {n : CmdName}
    (hc : decodeFrame cfg.profile c = .packet p) (hn : cfg.codes.nameOf p.cmd = some n) :
    decode cfg c = .instr (n.instr p.toBody) := by
  simp [decode, hc, hn]

/-- Settles O1: the packet is read back, and its code is the instruction's own. -/
theorem decodeOfEncodedInstruction : Obligations.DecodeOfEncodedInstruction := by
  intro cfg i hcodes hwf
  obtain ⟨hlen, hack⟩ := (Instr.wf_iff cfg.profile i).mp hwf
  have hpacket : decodeFrame cfg.profile (frameBody cfg (i.packet cfg)) = .packet (i.packet cfg) :=
    decodeFrame_frameBody hlen hack
  rw [decode_of_packet hpacket (nameOf_code hcodes i.name), Instr.packet_body, Instr.instr_of_name_body]

/-! ## The reserved flag bits -/

/-- Writing one byte leaves the others. -/
theorem byteAt_set_ne (c : List Byte) (x : Byte) {j k : Nat} (h : j ≠ k) :
    byteAt (c.set j x) k = byteAt c k := by
  simp [byteAt, List.getElem?_set_ne h]

/-- The P1 fields of a frame that holds the flags byte, with that byte written anew (R112, R113). -/
theorem fieldsP1_set_flags {c : List Byte} (x : Byte) (h : 5 < c.length) :
    fieldsP1 (c.set 5 x) = { fieldsP1 c with ack := x.getLsbD 7 } := by
  have hflags : byteAt (c.set 5 x) 5 = x := by simp [byteAt, h]
  have hdata : (c.set 5 x).drop p1HeaderLen = c.drop p1HeaderLen := List.drop_set_of_lt (by decide)
  have hbyte : ∀ k, 5 ≠ k → byteAt (c.set 5 x) k = byteAt c k := fun _ => byteAt_set_ne c x
  simp [fieldsP1, hflags, hdata, hbyte]

/-- The P1 decoder reads no bit of the flags byte but bit 7 (R113). -/
theorem decodeP1_set_flags (c : List Byte) {x y : Byte} (h : x.getLsbD 7 = y.getLsbD 7) :
    decodeP1 (c.set 5 x) = decodeP1 (c.set 5 y) := by
  by_cases hlen : 5 < c.length
  · have hbyte : ∀ z, byteAt (c.set 5 z) 8 = byteAt c 8 := fun z => byteAt_set_ne c z (by decide)
    simp only [decodeP1, List.length_set, hbyte, fieldsP1_set_flags _ hlen, h]
  · simp only [List.set_eq_of_length_le (not_lt.mp hlen)]

/-- Settles O4: the encoder's byte as it is written, and the decoder by `decodeP1_set_flags`. -/
theorem reservedFlagBitsAreZeroAndIgnored : Obligations.ReservedFlagBitsAreZeroAndIgnored :=
  ⟨fun _ => rfl, fun c _ _ h => decodeP1_set_flags c h⟩

/-! ## Lengths and written frames -/

/-- A pattern has SYNC_LEN = 4 bytes (R9). -/
@[simp] theorem Pattern.toList_length (p : Pattern) : p.toList.length = 4 := rfl

/-- Settles O5: start pattern, body and tail of each profile. -/
theorem frameLengths : Obligations.FrameLengths := by
  intro cfg p
  cases hp : cfg.profile with
  | p1 =>
    have htail : (frameTail cfg).length = if cfg.p1Trailer then 4 else 0 := by
      simp only [frameTail, hp]; split <;> rfl
    simp only [encodePacket, List.length_append, Pattern.toList_length, htail, frameBody, hp, bodyP1_length]
    omega
  | p2 =>
    simp only [encodePacket, List.length_append, Pattern.toList_length, frameTail, frameBody, hp,
      bodyP2_length]
    omega

/-- Settles O8: each written frame evaluates to its instruction. -/
theorem writtenFramesDecode : Obligations.WrittenFramesDecode := by
  refine ⟨?assign, ?showP1, ?showP2, ?background, ?touch⟩
  case assign => decide
  case showP1 => decide
  case showP2 => decide
  case background => decide
  case touch => decide

end Sys2Proof
end

section
/-! Obligations O10 and O14: the Byte Framer over whole byte sequences (40_framer.md R152, R154) and its
invariant (10_state.md R40). -/

namespace Sys2Proof.Machine

open Sys2Proof

/-- Settles O10: the start pattern leaves every framer in one state (`feed_startPattern`), from which the rest
is fed. -/
theorem noiseBeforeStartIsForgotten : Obligations.NoiseBeforeStartIsForgotten := by
  intro cfg f noise body
  have hnoise : (feed cfg f (noise ++ cfg.startPattern.toList)).1 =
      (feed cfg Framer.reset cfg.startPattern.toList).1 := by
    simp only [feed_append, feed_startPattern]
  rw [feed_append cfg f (noise ++ cfg.startPattern.toList) body, hnoise,
    feed_append cfg Framer.reset cfg.startPattern.toList body]
  exact ⟨rfl, rfl⟩

/-! ## The framer's invariant -/

/-- A byte that only slides the window leaves the counter full where it was full. -/
theorem slide_winCount_of_full {f : Framer} (b : Byte) (h : f.winCount = 4) : (f.slide b).winCount = 4 := by
  simp [Framer.slide, h]

/-- A framer without captured bytes meets the invariant, whatever its window (R40). -/
theorem framerInv_of_empty {cfg : Config} {f : Framer} (hcount : f.winCount ≤ 4) (hcap : f.cap = [])
    (hfull : f.fstate = .capture → f.winCount = 4) : FramerInv cfg f := by
  refine ⟨hcount, ?_, fun _ => hcap, hfull, fun _ => .inl ?_⟩ <;> simp [hcap]

/-- Appending beyond the ninth byte leaves the ninth. -/
theorem byteAt_append_of_lt {c d : List Byte} {k : Nat} (h : k < c.length) :
    byteAt (c ++ d) k = byteAt c k := by
  simp [byteAt, List.getElem?_append_left h]

/-- Under P1 a capture that a byte has not completed is still short of the length it announces (R156). -/
theorem capture_short_of_not_completed {cfg : Config} {win : Pattern} {cap : List Byte} {b : Byte}
    (hp : cfg.profile = .p1) (hshort : cap.length < 9 ∨ cap.length < 9 + (byteAt cap 8).toNat)
    (hnone : completedFrame cfg win (cap ++ [b]) = none) :
    (cap ++ [b]).length < 9 ∨ (cap ++ [b]).length < 9 + (byteAt (cap ++ [b]) 8).toNat := by
  have hne : ¬(9 ≤ (cap ++ [b]).length ∧ (cap ++ [b]).length = 9 + (byteAt (cap ++ [b]) 8).toNat) := by
    intro h
    rw [completedFrame_p1 hp] at hnone
    exact absurd ((if_pos h).symm.trans hnone) (by simp)
  by_cases h9 : cap.length < 9
  · simp only [List.length_append, List.length_singleton] at hne ⊢
    omega
  · rw [byteAt_append_of_lt (by omega)] at hne ⊢
    simp only [List.length_append, List.length_singleton] at hne ⊢
    omega

/-- Under P1 a capture in progress never reaches CAP_MAX (R156). -/
theorem FramerInv.cap_ne_capMax {cfg : Config} {f : Framer} (hp : cfg.profile = .p1)
    (h : FramerInv cfg f) : f.cap.length ≠ capMax cfg := by
  obtain ⟨-, -, -, -, hshort⟩ := h
  have hbyte := (byteAt f.cap 8).isLt
  have := hshort hp
  rw [capMax_p1 hp]
  omega

/-- Every framer step keeps the invariant, branch by branch (R152). -/
theorem framerStep_framerInv {cfg : Config} {f : Framer} (b : Byte) (h : FramerInv cfg f) :
    FramerInv cfg (framerStep cfg f b).framer := by
  have hcount : (f.slide b).winCount ≤ 4 := Nat.min_le_right ..
  obtain ⟨-, hmax, hhunt, hfull, hshort⟩ := h
  obtain ⟨hs, he⟩ | ⟨-, hf, he⟩ | ⟨-, -, -, he⟩ | ⟨-, -, -, c, -, he⟩ | ⟨-, hf, hc, hd, he⟩ :=
    framerStep_cases cfg f b <;> rw [he]
  · have hfour : (f.slide b).winCount = 4 := by
      simp only [Framer.atStart, Bool.and_eq_true, decide_eq_true_eq] at hs
      exact hs.1
    exact framerInv_of_empty hcount rfl fun _ => hfour
  · exact framerInv_of_empty hcount (hhunt hf) fun hcap => by
      rw [show (f.slide b).fstate = .hunt from hf] at hcap; cases hcap
  · exact framerInv_of_empty hcount rfl nofun
  · exact framerInv_of_empty hcount rfl nofun
  · refine ⟨hcount, ?_, fun hhunt' => ?_, fun _ => slide_winCount_of_full b (hfull hf),
      fun hp => capture_short_of_not_completed hp (hshort hp) hd⟩
    · simp only [List.length_append, List.length_singleton]; omega
    · rw [show (f.slide b).fstate = .capture from hf] at hhunt'; cases hhunt'

/-- Settles O14: the invariant branch by branch, and the overflowing branch excluded under P1. -/
theorem framerStepKeepsInvariant : Obligations.FramerStepKeepsInvariant := by
  refine fun cfg f b h => ⟨framerStep_framerInv b h, fun hp => ?_⟩
  obtain ⟨-, he⟩ | ⟨-, -, he⟩ | ⟨-, -, hc, -⟩ | ⟨-, -, -, c, -, he⟩ | ⟨-, -, -, -, he⟩ :=
    framerStep_cases cfg f b
  · rw [he]; split <;> simp
  · simp [he]
  · exact absurd hc (FramerInv.cap_ne_capMax hp h)
  · simp [he]
  · simp [he]

end Sys2Proof.Machine
end

section
/-! Obligations O2 and O3: an instruction's wire bytes, framed and decoded (40_framer.md section 2, 41_codec.md
section 2). After the start pattern every framer stands in one state, `capturing`; from there `feed_capturing`
says when a sequence of bytes is captured without an end, and each profile adds why its frame's bytes are
captured so and why the last one completes the frame. -/

namespace Sys2Proof.Machine

open Sys2Proof

/-! ## The window -/

/-- The window after some bytes is the last four of the pattern and those bytes (R153). -/
theorem exists_append_toList_foldl_slide (w : Pattern) (bs : List Byte) :
    ∃ a, a.length = bs.length ∧ w.toList ++ bs = a ++ (bs.foldl Pattern.slide w).toList := by
  induction bs generalizing w with
  | nil => exact ⟨[], rfl, by simp⟩
  | cons b bs ih =>
    obtain ⟨a, hlen, heq⟩ := ih (w.slide b)
    exact ⟨w.b0 :: a, by simp [hlen], congrArg (w.b0 :: ·) heq⟩

/-- A byte stays in the window for the three bytes after it. -/
theorem mem_toList_foldl_slide (w : Pattern) (ys : List Byte) (y : Byte) {t : List Byte} (h : t.length ≤ 3) :
    y ∈ ((ys ++ y :: t).foldl Pattern.slide w).toList := by
  rw [List.foldl_append]
  match t, h with
  | [], _ => simp [Pattern.slide, Pattern.toList]
  | [_], _ => simp [Pattern.slide, Pattern.toList]
  | [_, _], _ => simp [Pattern.slide, Pattern.toList]
  | [_, _, _], _ => simp [Pattern.slide, Pattern.toList]

/-- Four bytes fill the window (R153). -/
theorem foldl_slide_toList (w p : Pattern) : p.toList.foldl Pattern.slide w = p := rfl

/-! ## A capture in progress -/

/-- The framer right after a start pattern (R154). -/
def capturing (cfg : Config) : Framer :=
  { win := cfg.startPattern, winCount := 4, fstate := .capture, cap := [] }

/-- The bytes `xs` after a start pattern are all captured: none completes another start pattern, meets a full
capture or completes a frame. -/
def StaysInCapture (cfg : Config) (xs : List Byte) : Prop :=
  ∀ pre b, pre ++ [b] <+: xs →
    (pre ++ [b]).foldl Pattern.slide cfg.startPattern ≠ cfg.startPattern ∧ pre.length ≠ capMax cfg ∧
      completedFrame cfg ((pre ++ [b]).foldl Pattern.slide cfg.startPattern) (pre ++ [b]) = none

/-- The framer after bytes that are all captured. -/
def capturedAfter (cfg : Config) (xs : List Byte) : Framer :=
  { win := xs.foldl Pattern.slide cfg.startPattern, winCount := 4, fstate := .capture, cap := xs }

/-- The window of the next byte of a capture is the start pattern only as the four bytes say. -/
theorem capturedAfter_atStart {cfg : Config} {xs : List Byte} {b : Byte}
    (h : (xs ++ [b]).foldl Pattern.slide cfg.startPattern ≠ cfg.startPattern) :
    ((capturedAfter cfg xs).slide b).atStart cfg = false := by
  rw [Bool.eq_false_iff, Ne, slide_atStart_iff]
  rintro ⟨-, hwin⟩
  exact h (by rw [List.foldl_append]; exact hwin)

/-- Bytes that are all captured give no frame, and leave the framer with them in its capture. -/
theorem feed_capturing {cfg : Config} {xs : List Byte} (h : StaysInCapture cfg xs) :
    feed cfg (capturing cfg) xs = (capturedAfter cfg xs, []) := by
  induction xs using List.reverseRecOn with
  | nil => rfl
  | append_singleton xs b ih =>
    have hprefix : StaysInCapture cfg xs := fun pre c hpre =>
      h pre c (hpre.trans (List.prefix_append xs [b]))
    obtain ⟨hstart, hroom, hopen⟩ := h xs b (List.prefix_refl _)
    have hstep : framerStep cfg (capturedAfter cfg xs) b = ⟨capturedAfter cfg (xs ++ [b]), none, none⟩ := by
      rw [framerStep_of_not_completed (capturedAfter_atStart hstart) rfl hroom]
      · simp [capturedAfter, Framer.slide]
      · simpa [capturedAfter, Framer.slide] using hopen
    rw [feed_append, ih hprefix]
    simp [feed, hstep]

/-- The byte after such a capture that completes a frame hands it over, and the framer hunts. -/
theorem framerStep_completes {cfg : Config} {xs c : List Byte} {b : Byte}
    (hstart : (xs ++ [b]).foldl Pattern.slide cfg.startPattern ≠ cfg.startPattern)
    (hroom : xs.length ≠ capMax cfg)
    (hdone : completedFrame cfg ((xs ++ [b]).foldl Pattern.slide cfg.startPattern) (xs ++ [b]) = some c) :
    ∃ g : Framer, g.cap = [] ∧ framerStep cfg (capturedAfter cfg xs) b = ⟨g, none, some c⟩ := by
  refine ⟨_, ?_, framerStep_of_completed (capturedAfter_atStart hstart) rfl hroom ?_⟩
  · rfl
  · simpa [capturedAfter, Framer.slide] using hdone

/-- A start pattern, bytes that are captured, and a byte that completes the frame, from a framer in any state. -/
theorem feed_startPattern_frame {cfg : Config} {xs c : List Byte} {b : Byte} (f : Framer)
    (hxs : StaysInCapture cfg xs)
    (hstart : (xs ++ [b]).foldl Pattern.slide cfg.startPattern ≠ cfg.startPattern)
    (hroom : xs.length ≠ capMax cfg)
    (hdone : completedFrame cfg ((xs ++ [b]).foldl Pattern.slide cfg.startPattern) (xs ++ [b]) = some c) :
    ∃ g : Framer, g.cap = [] ∧ feed cfg f (cfg.startPattern.toList ++ (xs ++ [b])) =
      (g, (feed cfg f cfg.startPattern.toList).2 ++ [c]) := by
  obtain ⟨g, hcap, hstep⟩ := framerStep_completes hstart hroom hdone
  refine ⟨g, hcap, ?_⟩
  have hcapturing : (feed cfg f cfg.startPattern.toList).1 = capturing cfg := feed_startPattern cfg f
  rw [feed_append, hcapturing, feed_append, feed_capturing hxs]
  simp [feed, hstep]

/-! ## P1 -/

/-- The capture after a step is empty or one byte longer. -/
theorem framerStep_cap_length_le (cfg : Config) (f : Framer) (b : Byte) :
    (framerStep cfg f b).framer.cap.length ≤ f.cap.length + 1 := by
  obtain ⟨-, he⟩ | ⟨-, -, he⟩ | ⟨-, -, -, he⟩ | ⟨-, -, -, c, -, he⟩ | ⟨-, -, -, -, he⟩ :=
    framerStep_cases cfg f b <;> simp [he, Framer.slide]

/-- Under P1 a byte that leaves the capture below nine bytes completes no frame (R156). -/
theorem framerStep_frame_none_of_short {cfg : Config} {f : Framer} {b : Byte} (hp : cfg.profile = .p1)
    (h : f.cap.length + 1 < 9) : (framerStep cfg f b).frame = none := by
  obtain ⟨-, he⟩ | ⟨-, -, he⟩ | ⟨-, -, -, he⟩ | ⟨-, -, -, c, hd, -⟩ | ⟨-, -, -, -, he⟩ :=
    framerStep_cases cfg f b
  · rw [he]
  · rw [he]
  · rw [he]
  · rw [completedFrame_p1 hp, if_neg (by simp only [List.length_append, List.length_singleton]; omega)] at hd
    cases hd
  · rw [he]

/-- Under P1 fewer than nine captured bytes give no frame: so the trailer's four bytes give none (R114). -/
theorem feed_frames_nil_of_short {cfg : Config} {f : Framer} {bs : List Byte} (hp : cfg.profile = .p1)
    (h : f.cap.length + bs.length < 9) : (feed cfg f bs).2 = [] := by
  induction bs generalizing f with
  | nil => rfl
  | cons b bs ih =>
    rw [List.length_cons] at h
    have hcap := framerStep_cap_length_le cfg f b
    simp [feed, framerStep_frame_none_of_short hp (by omega : f.cap.length + 1 < 9),
      ih (f := (framerStep cfg f b).framer) (by omega)]

/-- The ninth byte of a P1 body is its length field (R112). -/
theorem byteAt_prefix_bodyP1 {p : Packet} {pre : List Byte} (hpre : pre <+: bodyP1 p)
    (h : 9 ≤ pre.length) : byteAt pre 8 = dataLen p := by
  obtain ⟨post, heq⟩ := hpre
  rw [← byteAt_append_of_lt (d := post) (by omega), heq]
  rfl

/-- Under R161's premise no window inside the body is the start pattern. -/
theorem foldl_slide_ne_of_start_only_in_front {sync : Pattern} {body pre : List Byte} {b : Byte}
    (honly : ∀ a z : List Byte, sync.toList ++ body = a ++ sync.toList ++ z → a = [])
    (hpre : pre ++ [b] <+: body) : (pre ++ [b]).foldl Pattern.slide sync ≠ sync := by
  intro hwin
  obtain ⟨post, rfl⟩ := hpre
  obtain ⟨a, hlen, heq⟩ := exists_append_toList_foldl_slide sync (pre ++ [b])
  rw [hwin] at heq
  have hnil : a = [] := honly a post (by rw [← List.append_assoc, heq])
  simp [hnil] at hlen

/-- The bytes of a P1 body up to one before its last complete no frame (R156). -/
theorem completedFrame_p1_of_proper_prefix {cfg : Config} {p : Packet} {win : Pattern} {pre : List Byte}
    (hp : cfg.profile = .p1) (hdata : p.data.length ≤ 255) (hpre : pre <+: bodyP1 p)
    (hlt : pre.length < (bodyP1 p).length) : completedFrame cfg win pre = none := by
  rw [completedFrame_p1 hp]
  refine if_neg fun hdone => ?_
  obtain ⟨hnine, hlen⟩ := hdone
  have hbyte : pre.getD 8 0 = dataLen p := byteAt_prefix_bodyP1 hpre hnine
  rw [hbyte, dataLen_toNat hdata] at hlen
  rw [bodyP1_length] at hlt
  omega

/-- A whole P1 body completes its frame (R156). -/
theorem completedFrame_bodyP1 {cfg : Config} {p : Packet} (win : Pattern) (hp : cfg.profile = .p1)
    (hdata : p.data.length ≤ 255) : completedFrame cfg win (bodyP1 p) = some (bodyP1 p) := by
  have hlen := bodyP1_length p
  have hbyte : (bodyP1 p).getD 8 0 = dataLen p := rfl
  rw [completedFrame_p1 hp, hbyte, dataLen_toNat hdata]
  exact if_pos ⟨by omega, hlen⟩

/-- Under P1 the start pattern and a body that holds no further one hand over the body, from a framer in any
state (R152, R161). -/
theorem feed_bodyP1 {cfg : Config} {p : Packet} (f : Framer) (hp : cfg.profile = .p1)
    (hdata : p.data.length ≤ 255)
    (honly : ∀ a z : List Byte, cfg.syncP1.toList ++ bodyP1 p = a ++ cfg.syncP1.toList ++ z → a = []) :
    ∃ g : Framer, g.cap = [] ∧ feed cfg f (cfg.syncP1.toList ++ bodyP1 p) =
      (g, (feed cfg f cfg.syncP1.toList).2 ++ [bodyP1 p]) := by
  have hsync : cfg.startPattern = cfg.syncP1 := by simp [Config.startPattern, hp]
  have hlen := bodyP1_length p
  obtain ⟨xs, b, hsplit⟩ : ∃ xs b, bodyP1 p = xs ++ [b] :=
    List.eq_nil_or_concat' (bodyP1 p) |>.resolve_left (List.ne_nil_of_length_pos (by omega))
  have hxs : xs.length + 1 = 9 + p.data.length := by rw [← hlen, hsplit]; simp
  have hwin : ∀ pre c, pre ++ [c] <+: bodyP1 p →
      (pre ++ [c]).foldl Pattern.slide cfg.startPattern ≠ cfg.startPattern := fun pre c hpre => by
    rw [hsync]; exact foldl_slide_ne_of_start_only_in_front honly hpre
  have hstays : StaysInCapture cfg xs := fun pre c hpre => by
    have hbody : pre ++ [c] <+: bodyP1 p := hpre.trans (hsplit ▸ List.prefix_append xs [b])
    have hle := hpre.length_le
    rw [List.length_append, List.length_singleton] at hle
    refine ⟨hwin pre c hbody, by rw [capMax_p1 hp]; omega,
      completedFrame_p1_of_proper_prefix hp hdata hbody ?_⟩
    rw [hlen, List.length_append, List.length_singleton]
    omega
  rw [← hsync, hsplit]
  refine feed_startPattern_frame f hstays (hwin xs b (hsplit ▸ List.prefix_refl _))
    (by rw [capMax_p1 hp]; omega) ?_
  rw [← hsplit]
  exact completedFrame_bodyP1 _ hp hdata

/-- Settles O2: the body is handed over at its last byte (`feed_bodyP1`), and what follows it, if anything, is
the trailer, too short for a frame of its own. -/
theorem p1InstructionSurvivesTheWire : Obligations.P1InstructionSurvivesTheWire := by
  intro cfg f i hp hcodes hwf honly
  refine ⟨?_, decodeOfEncodedInstruction cfg i hcodes (by rwa [hp])⟩
  have hdata : (i.packet cfg).data.length ≤ 255 := ((Instr.wf_iff .p1 i).mp hwf).1
  have hbody : frameBody cfg (i.packet cfg) = bodyP1 (i.packet cfg) := by simp [frameBody, hp]
  have hsync : cfg.startPattern = cfg.syncP1 := by simp [Config.startPattern, hp]
  have htail : (frameTail cfg).length ≤ 4 := by
    simp only [frameTail, hp]; split <;> simp
  rw [hbody] at honly ⊢
  obtain ⟨g, hcap, hfeed⟩ := feed_bodyP1 f hp hdata honly
  have hrest : (feed cfg g (frameTail cfg)).2 = [] :=
    feed_frames_nil_of_short hp (by rw [hcap, List.length_nil]; omega)
  rw [encode, encodePacket, hbody, hsync, feed_append, hfeed]
  simp [hrest]

/-! ## P2 -/

/-- Under P2 the bytes of a body are nibbles (R115). -/
theorem le_of_mem_bodyP2 {p : Packet} {b : Byte} (h : b ∈ bodyP2 p) : b.toNat ≤ 0x0F := by
  rw [bodyP2, ← nibbles_append] at h
  exact le_of_mem_nibbles h

/-- Up to three bytes after the body, some byte of the body is still in the window. -/
theorem exists_body_byte_in_window (w : Pattern) {body t pre : List Byte} {b : Byte} (hbody : body ≠ [])
    (ht : t.length ≤ 3) (hpre : pre ++ [b] <+: body ++ t) :
    ∃ y ∈ body, y ∈ ((pre ++ [b]).foldl Pattern.slide w).toList := by
  by_cases hlen : (pre ++ [b]).length ≤ body.length
  · have hin : pre ++ [b] <+: body := List.prefix_of_prefix_length_le hpre (List.prefix_append ..) hlen
    exact ⟨b, hin.subset (by simp), mem_toList_foldl_slide w pre b (t := []) (by simp)⟩
  · obtain ⟨u, hu⟩ := List.prefix_of_prefix_length_le (List.prefix_append body t) hpre (by omega)
    obtain ⟨ys, y, hy⟩ := (List.eq_nil_or_concat' body).resolve_left hbody
    have hle := hpre.length_le
    rw [← hu, List.length_append, List.length_append] at hle
    refine ⟨y, by simp [hy], ?_⟩
    rw [← hu, hy, List.append_assoc]
    exact mem_toList_foldl_slide w ys y (t := u) (by omega)

/-- A pattern whose bytes all have a nonzero high nibble is no window with a nibble in it. -/
theorem ne_of_nibble_mem {p w : Pattern} (hp : ∀ b ∈ p.toList, 0x0F < b.toNat) {y : Byte}
    (hy : y ∈ w.toList) (hle : y.toNat ≤ 0x0F) : w ≠ p := by
  rintro rfl
  exact absurd hle (Nat.not_le.mpr (hp y hy))

/-- The bytes of a reversed pattern are the pattern's. -/
theorem mem_toList_reverse {p : Pattern} {b : Byte} : b ∈ p.reverse.toList ↔ b ∈ p.toList := by
  simp only [Pattern.reverse, Pattern.toList, List.mem_cons, List.not_mem_nil, or_false]
  tauto

/-- A pattern's bytes but the last, and the last. -/
theorem toList_eq_concat (p : Pattern) : p.toList = [p.b0, p.b1, p.b2] ++ [p.b3] := rfl

/-- Under P2 a start pattern of bytes with nonzero high nibbles, a body and the end pattern hand over the body,
from a framer in any state (R152, R157, R162). -/
theorem feed_bodyP2 {cfg : Config} {p : Packet} (f : Framer) (hp : cfg.profile = .p2)
    (hnib : ∀ b ∈ cfg.syncP2.toList, 0x0F < b.toNat) (hpal : cfg.syncP2 ≠ cfg.syncP2.reverse)
    (hcap : 16 + 2 * p.data.length + 4 ≤ cfg.capMaxP2) :
    (feed cfg f (cfg.syncP2.toList ++ (bodyP2 p ++ cfg.endPattern.toList))).2 =
      (feed cfg f cfg.syncP2.toList).2 ++ [bodyP2 p] := by
  have hsync : cfg.startPattern = cfg.syncP2 := by simp [Config.startPattern, hp]
  have hlen := bodyP2_length p
  have hne : bodyP2 p ≠ [] := List.ne_nil_of_length_pos (by omega)
  have hend : ∀ b ∈ cfg.syncP2.reverse.toList, 0x0F < b.toNat := fun b hb => hnib b (mem_toList_reverse.mp hb)
  have hsplit : bodyP2 p ++ cfg.endPattern.toList =
      (bodyP2 p ++ [cfg.endPattern.b0, cfg.endPattern.b1, cfg.endPattern.b2]) ++ [cfg.endPattern.b3] := by
    rw [toList_eq_concat, List.append_assoc]
  have hwin : (bodyP2 p ++ cfg.endPattern.toList).foldl Pattern.slide cfg.startPattern =
      cfg.syncP2.reverse := by
    rw [List.foldl_append, foldl_slide_toList]; rfl
  have hstays : StaysInCapture cfg
      (bodyP2 p ++ [cfg.endPattern.b0, cfg.endPattern.b1, cfg.endPattern.b2]) := fun pre c hpre => by
    obtain ⟨y, hy, hmem⟩ := exists_body_byte_in_window cfg.startPattern hne (by simp) hpre
    have hle := hpre.length_le
    simp only [List.length_append, List.length_cons, List.length_nil] at hle
    refine ⟨?_, by rw [capMax_p2 hp]; omega, ?_⟩
    · exact ne_of_nibble_mem (hsync ▸ hnib) hmem (le_of_mem_bodyP2 hy)
    · rw [completedFrame_p2 hp]
      exact if_neg fun h => ne_of_nibble_mem hend hmem (le_of_mem_bodyP2 hy) h.1
  have hdone : completedFrame cfg cfg.syncP2.reverse (bodyP2 p ++ cfg.endPattern.toList) =
      some (bodyP2 p) := by
    rw [completedFrame_p2 hp, if_pos ⟨rfl, by simp⟩]
    simp
  obtain ⟨g, -, hfeed⟩ := feed_startPattern_frame (c := bodyP2 p) f hstays
    (by rw [← hsplit, hwin, hsync]; exact hpal.symm)
    (by
      rw [capMax_p2 hp]
      simp only [List.length_append, List.length_cons, List.length_nil]
      omega)
    (by rw [← hsplit, hwin]; exact hdone)
  rw [hsplit, ← hsync, hfeed]

/-- Settles O3: the body and the end pattern together hand over the body (`feed_bodyP2`). -/
theorem p2InstructionSurvivesTheWire : Obligations.P2InstructionSurvivesTheWire := by
  intro cfg f i hp hcodes hwf hnib hpal hcap
  refine ⟨?_, decodeOfEncodedInstruction cfg i hcodes (by rwa [hp])⟩
  have hbody : frameBody cfg (i.packet cfg) = bodyP2 (i.packet cfg) := by simp [frameBody, hp]
  have hsync : cfg.startPattern = cfg.syncP2 := by simp [Config.startPattern, hp]
  have htail : frameTail cfg = cfg.endPattern.toList := by simp [frameTail, hp]
  rw [encode, encodePacket, hbody, hsync, htail, List.append_assoc]
  exact feed_bodyP2 f hp hnib hpal hcap

end Sys2Proof.Machine
end

section
/-! Obligations O49, O50, O54, O55 and O57: what a step can make of a node's registers. `step_write` lists the
writes, and each obligation goes through that list: an invariant is kept by every write, and a register that has
changed was changed by one of the writes that name it. -/

namespace Sys2Proof.Machine

open Sys2Proof Host

/-! ## A write in the terms of the state before the step -/

/-- The instruction and port behind a write, in the terms of the state before the step. -/
theorem nextInstr_of_arrival {s : State} {p q : Port} {b : Byte} {i j : Instr}
    (hi : nextInstr s = some (p, i)) (hj : i = j) (hq : (arrival p b s).senderPort = q) :
    nextInstr s = some (q, j) := by
  rw [arrival_senderPort] at hq
  rw [hi, hj, hq]

/-- What a node's tick can make of the registers, in the terms of the state before the step (R233, R234, R370). -/
theorem tick_writes (s : State) (t : U32) :
    ∃ e la, (nodeTick (takeTime t (beginEvent s))).node = { s.node with errorStatus := e } ∨
      ((s.node.chainState = .unassigned ∨ s.node.chainState = .discovering) ∧
        s.cfg.discoveryIntervalMs.toNat ≤ (t - s.node.lastAnnounce).toNat ∧
        (nodeTick (takeTime t (beginEvent s))).node =
          { s.node with errorStatus := e, lastAnnounce := la, chainState := .discovering }) ∨
      (s.node.chainState = .assigned ∧ s.node.probeArmed = true ∧ s.cfg.discoveryMode = .nodeToNode ∧
        s.cfg.probeTimeoutMult * s.cfg.discoveryIntervalMs.toNat ≤ (t - s.node.probeStart).toNat ∧
        (nodeTick (takeTime t (beginEvent s))).node = { s.node with
          errorStatus := e, probeArmed := false, chainState := .terminating, propagationMode := true,
          chainLength := s.node.localAddress + 1 }) :=
  nodeTick_node (takeTime t (beginEvent s))

/-! ## The discovery state and the address -/

/-- A node with an assignable address, in a state that has one, agrees with R213. -/
theorem addressInv_of_addressed {n : NodeRegs}
    (hst : ¬(n.chainState = .unassigned ∨ n.chainState = .discovering))
    (haddr : n.localAddress.toNat ≤ 252) (harmed : n.probeArmed = true → n.chainState = .assigned) :
    AddressInv n := by
  have hne : ∀ a : Byte, 252 < a.toNat → n.localAddress ≠ a := by
    rintro a ha rfl
    omega
  exact ⟨iff_of_false hst (hne _ (by decide)), harmed, hne _ (by decide), hne _ (by decide)⟩

/-- A node after a reset agrees with R213. -/
theorem addressInv_of_reset {n : NodeRegs} (hst : n.chainState = .unassigned) (haddr : n.localAddress = 254)
    (harmed : n.probeArmed = false) : AddressInv n :=
  ⟨iff_of_true (.inl hst) haddr, by simp [harmed], by rw [haddr]; decide, by rw [haddr]; decide⟩

/-- A node in a state that has an address goes on to another such state, its probe-timeout over (R212). -/
theorem AddressInv.leave_assigned {n m : NodeRegs} (h : AddressInv n) (ha : n.chainState = .assigned)
    (hm : m.localAddress = n.localAddress)
    (hst : ¬(m.chainState = .unassigned ∨ m.chainState = .discovering)) (hp : m.probeArmed = false) :
    AddressInv m := by
  obtain ⟨hiff, -, hcmd, hall⟩ := h
  have hne : n.localAddress ≠ addrNull := fun hnull => by simp [ha] at hiff; exact hiff hnull
  refine ⟨iff_of_false hst (hm ▸ hne), fun hp' => ?_, hm ▸ hcmd, hm ▸ hall⟩
  rw [hp] at hp'; cases hp'

/-- Every write of an instruction keeps R213's agreement. -/
theorem NodeWrite.addressInv {i : Instr} {s : State} {n : NodeRegs} (hw : NodeWrite i s n)
    (h : AddressInv s.node) : AddressInv n := by
  cases hw with
  | same => exact h
  | reset => exact addressInv_of_reset rfl rfl rfl
  | assign p _ _ hle => exact addressInv_of_addressed (by simp) hle nofun
  | enable => exact h
  | length => exact h
  | busOn => exact h
  | busOff => exact h
  | adopt p a _ _ _ _ _ _ _ hle => exact addressInv_of_addressed (by simp) hle fun _ => rfl
  | relay p _ _ ha => exact h.leave_assigned ha rfl (by simp) rfl
  | terminator => exact h
  | unfreeze => exact h

/-- Every write of a step keeps R213's agreement. -/
theorem StepWrite.addressInv {s : State} {n : NodeRegs} (hw : StepWrite s n) (h : AddressInv s.node) :
    AddressInv n := by
  cases hw with
  | same => exact h
  | noted => exact h
  | instr p b i n _ hw => exact hw.addressInv (by rw [arrival_node]; exact h)
  | tick now rest =>
    obtain ⟨e, la, hn | ⟨hu, -, hn⟩ | ⟨ha, -, -, -, hn⟩⟩ := tick_writes s now <;> rw [hn]
    · exact h
    · obtain ⟨hiff, harmed, hcmd, hall⟩ := h
      refine ⟨iff_of_true (.inr rfl) (hiff.mp hu), fun hp => ?_, hcmd, hall⟩
      simp [harmed hp] at hu
    · exact h.leave_assigned ha rfl (by simp) rfl
  | externalReset => exact addressInv_of_reset rfl rfl rfl

/-- Settles O49: every write of a step keeps the agreement. -/
theorem addressInvariantKept : Obligations.AddressInvariantKept :=
  fun _ _ h hstep => (step_write hstep).addressInv h

/-! ## Bus mode, the terminating state and propagation -/

/-- Every write of an instruction keeps that bus mode and the terminating state need propagation. -/
theorem NodeWrite.modeInv {i : Instr} {s : State} {n : NodeRegs} (hw : NodeWrite i s n)
    (h : ModeInv s.node) : ModeInv n := by
  obtain ⟨hbus, hterm⟩ := h
  cases hw with
  | same => exact ⟨hbus, hterm⟩
  | reset => exact ⟨nofun, nofun⟩
  | assign => exact ⟨hbus, nofun⟩
  | enable => exact ⟨fun _ => rfl, fun _ => rfl⟩
  | length => exact ⟨hbus, hterm⟩
  | busOn p _ _ hp => exact ⟨fun _ => hp, hterm⟩
  | busOff => exact ⟨nofun, hterm⟩
  | adopt => exact ⟨hbus, nofun⟩
  | relay => exact ⟨hbus, nofun⟩
  | terminator => exact ⟨fun _ => rfl, fun _ => rfl⟩
  | unfreeze => exact ⟨hbus, hterm⟩

/-- Every write of a step keeps that bus mode and the terminating state need propagation. -/
theorem StepWrite.modeInv {s : State} {n : NodeRegs} (hw : StepWrite s n) (h : ModeInv s.node) :
    ModeInv n := by
  cases hw with
  | same => exact h
  | noted => exact h
  | instr p b i n _ hw => exact hw.modeInv (by rw [arrival_node]; exact h)
  | tick now rest =>
    obtain ⟨e, la, hn | ⟨-, -, hn⟩ | ⟨-, -, -, -, hn⟩⟩ := tick_writes s now <;> rw [hn]
    · exact h
    · exact ⟨h.1, nofun⟩
    · exact ⟨fun _ => rfl, fun _ => rfl⟩
  | externalReset => exact ⟨nofun, nofun⟩

/-- Settles O50: every write of a step keeps it. -/
theorem modeInvariantKept : Obligations.ModeInvariantKept :=
  fun _ _ h hstep => (step_write hstep).modeInv h

/-! ## `freeze` -/

/-- No write of an instruction leaves `freeze` raised (R263). -/
theorem NodeWrite.freeze_eq_false {i : Instr} {s : State} {n : NodeRegs} (hw : NodeWrite i s n)
    (h : s.node.freeze = false) : n.freeze = false := by
  cases hw with
  | unfreeze => rfl
  | _ => exact h

/-- No write of a step leaves `freeze` raised (R62). -/
theorem StepWrite.freeze_eq_false {s : State} {n : NodeRegs} (hw : StepWrite s n)
    (h : s.node.freeze = false) : n.freeze = false := by
  cases hw with
  | same => exact h
  | noted => exact h
  | instr p b i n _ hw => exact hw.freeze_eq_false (by rw [arrival_node]; exact h)
  | tick now rest =>
    obtain ⟨e, la, hn | ⟨-, -, hn⟩ | ⟨-, -, -, -, hn⟩⟩ := tick_writes s now <;> rw [hn] <;> exact h
  | externalReset => rfl

/-- Settles O57: no write of a step raises `freeze`. -/
theorem freezeIsLoweredWithinTheStep : Obligations.FreezeIsLoweredWithinTheStep :=
  fun _ _ h hstep => (step_write hstep).freeze_eq_false h

/-! ## The transitions of `chain_state` -/

/-- Settles O54: the writes that change `chain_state`, each under its row's condition; a discovering node that
announces again stays as it is. -/
theorem chainStateTransitions : Obligations.ChainStateTransitions := by
  intro s t _ hstep hne
  have hwrite := step_write hstep
  generalize t.node = n at hne hwrite ⊢
  cases hwrite with
  | same => exact absurd rfl hne
  | noted => exact absurd rfl hne
  | externalReset now rest hi => exact .inr (.inr (.inr (.inr (.inr ⟨rfl, .inr ⟨now, rest, hi⟩⟩))))
  | tick now rest hi =>
    obtain ⟨e, la, hn | ⟨hu, hdue, hn⟩ | ⟨ha, harmed, hm, hdue, hn⟩⟩ := tick_writes s now <;>
      rw [hn] at hne ⊢
    · exact absurd rfl hne
    · exact .inl ⟨hu.resolve_right (Ne.symm hne), rfl, now, rest, hi, hdue⟩
    · exact .inr (.inr (.inr (.inr (.inl ⟨ha, harmed, rfl, hm, now, rest, hi, hdue⟩))))
  | instr p b i n hi hw =>
    cases hw with
    | reset q hq hup =>
      exact .inr (.inr (.inr (.inr (.inr ⟨rfl, .inl ⟨q, nextInstr_of_arrival hi hq hup⟩⟩))))
    | assign q hq hup hle =>
      exact .inr (.inr (.inl ⟨rfl, rfl, q, nextInstr_of_arrival hi hq hup, hle⟩))
    | adopt q a hq hup hdest hm hu h252 h255 =>
      rw [arrival_node] at hu
      rw [arrival_cfg] at hm
      exact .inr (.inl ⟨hu, rfl, rfl, hm, q, nextInstr_of_arrival hi hq hup, hdest, h252, h255⟩)
    | relay q hq hdown ha harmed hdest =>
      rw [arrival_node] at ha harmed hdest
      exact .inr (.inr (.inr (.inl ⟨ha, harmed, rfl, q, nextInstr_of_arrival hi hq hdown, hdest⟩)))
    | _ => exact absurd (by simp) hne

/-! ## The writers of ChainConfig -/

/-- The address is written by ASSIGN_ADDRESS, PROBE and RESET (R31). -/
theorem StepWrite.localAddress_writer {s : State} {n : NodeRegs} (hw : StepWrite s n)
    (hx : ∀ now rest, s.inputs ≠ .externalReset now :: rest) (hne : n.localAddress ≠ s.node.localAddress) :
    ∃ p, nextInstr s = some (.up, .assignAddress p) ∨ nextInstr s = some (.up, .probe p) ∨
      nextInstr s = some (.up, .reset p) := by
  cases hw with
  | same => exact absurd rfl hne
  | noted => exact absurd rfl hne
  | externalReset now rest hi => exact absurd hi (hx now rest)
  | tick now rest =>
    obtain ⟨e, la, hn | ⟨-, -, hn⟩ | ⟨-, -, -, -, hn⟩⟩ := tick_writes s now <;> rw [hn] at hne <;>
      exact absurd rfl hne
  | instr p b i n hi hw =>
    cases hw with
    | assign q hq hup => exact ⟨q, .inl (nextInstr_of_arrival hi hq hup)⟩
    | adopt q a hq hup => exact ⟨q, .inr (.inl (nextInstr_of_arrival hi hq hup))⟩
    | reset q hq hup => exact ⟨q, .inr (.inr (nextInstr_of_arrival hi hq hup))⟩
    | _ => exact absurd (by simp) hne

/-- The chain length is written by SET_CHAIN_LENGTH, TERMINATOR_ANNOUNCE, RESET and a tick (R32). -/
theorem StepWrite.chainLength_writer {s : State} {n : NodeRegs} (hw : StepWrite s n)
    (hx : ∀ now rest, s.inputs ≠ .externalReset now :: rest) (hne : n.chainLength ≠ s.node.chainLength) :
    (∃ p, nextInstr s = some (.up, .setChainLength p) ∨ nextInstr s = some (.down, .terminatorAnnounce p) ∨
      nextInstr s = some (.up, .reset p)) ∨ ∃ now rest, s.inputs = .tick now :: rest := by
  cases hw with
  | same => exact absurd rfl hne
  | noted => exact absurd rfl hne
  | externalReset now rest hi => exact absurd hi (hx now rest)
  | tick now rest hi => exact .inr ⟨now, rest, hi⟩
  | instr p b i n hi hw =>
    cases hw with
    | length q hq hup => exact .inl ⟨q, .inl (nextInstr_of_arrival hi hq hup)⟩
    | terminator q hq hdown => exact .inl ⟨q, .inr (.inl (nextInstr_of_arrival hi hq hdown))⟩
    | reset q hq hup => exact .inl ⟨q, .inr (.inr (nextInstr_of_arrival hi hq hup))⟩
    | _ => exact absurd (by simp) hne

/-- Propagation is cleared by RESET alone (R33). -/
theorem StepWrite.propagation_clearer {s : State} {n : NodeRegs} (hw : StepWrite s n)
    (hx : ∀ now rest, s.inputs ≠ .externalReset now :: rest) (hold : s.node.propagationMode = true)
    (hnew : n.propagationMode = false) : ∃ p, nextInstr s = some (.up, .reset p) := by
  cases hw with
  | same => simp [hold] at hnew
  | noted => simp [hold] at hnew
  | externalReset now rest hi => exact absurd hi (hx now rest)
  | tick now rest =>
    obtain ⟨e, la, hn | ⟨-, -, hn⟩ | ⟨-, -, -, -, hn⟩⟩ := tick_writes s now <;> simp [hn, hold] at hnew
  | instr p b i n hi hw =>
    cases hw with
    | reset q hq hup => exact ⟨q, nextInstr_of_arrival hi hq hup⟩
    | _ => simp [hold] at hnew

/-- Propagation is set by ENABLE_PROPAGATION, TERMINATOR_ANNOUNCE and a tick (R33). -/
theorem StepWrite.propagation_setter {s : State} {n : NodeRegs} (hw : StepWrite s n)
    (hold : s.node.propagationMode = false) (hnew : n.propagationMode = true) :
    (∃ p, nextInstr s = some (.up, .enablePropagation p) ∨
      nextInstr s = some (.down, .terminatorAnnounce p)) ∨ ∃ now rest, s.inputs = .tick now :: rest := by
  cases hw with
  | same => simp [hold] at hnew
  | noted => simp [hold] at hnew
  | externalReset => simp [NodeRegs.reset] at hnew
  | tick now rest hi => exact .inr ⟨now, rest, hi⟩
  | instr p b i n hi hw =>
    cases hw with
    | enable q hq hup => exact .inl ⟨q, .inl (nextInstr_of_arrival hi hq hup)⟩
    | terminator q hq hdown => exact .inl ⟨q, .inr (nextInstr_of_arrival hi hq hdown)⟩
    | _ => simp [hold] at hnew

/-- Bus mode is cleared by END_BUS_MODE and RESET (R34). -/
theorem StepWrite.busMode_clearer {s : State} {n : NodeRegs} (hw : StepWrite s n)
    (hx : ∀ now rest, s.inputs ≠ .externalReset now :: rest) (hold : s.node.busMode = true)
    (hnew : n.busMode = false) :
    ∃ p, nextInstr s = some (.up, .endBusMode p) ∨ nextInstr s = some (.up, .reset p) := by
  cases hw with
  | same => simp [hold] at hnew
  | noted => simp [hold] at hnew
  | externalReset now rest hi => exact absurd hi (hx now rest)
  | tick now rest =>
    obtain ⟨e, la, hn | ⟨-, -, hn⟩ | ⟨-, -, -, -, hn⟩⟩ := tick_writes s now <;> simp [hn, hold] at hnew
  | instr p b i n hi hw =>
    cases hw with
    | busOff q hq hup => exact ⟨q, .inl (nextInstr_of_arrival hi hq hup)⟩
    | reset q hq hup => exact ⟨q, .inr (nextInstr_of_arrival hi hq hup)⟩
    | _ => simp [hold] at hnew

/-- Bus mode is set by START_BUS_MODE alone, at a node that propagates (R34, R225). -/
theorem StepWrite.busMode_setter {s : State} {n : NodeRegs} (hw : StepWrite s n)
    (hold : s.node.busMode = false) (hnew : n.busMode = true) :
    s.node.propagationMode = true ∧ ∃ p, nextInstr s = some (.up, .startBusMode p) := by
  cases hw with
  | same => simp [hold] at hnew
  | noted => simp [hold] at hnew
  | externalReset => simp [NodeRegs.reset] at hnew
  | tick now rest =>
    obtain ⟨e, la, hn | ⟨-, -, hn⟩ | ⟨-, -, -, -, hn⟩⟩ := tick_writes s now <;> simp [hn, hold] at hnew
  | instr p b i n hi hw =>
    cases hw with
    | busOn q hq hup hp =>
      rw [arrival_node] at hp
      exact ⟨hp, q, nextInstr_of_arrival hi hq hup⟩
    | _ => simp [hold] at hnew

/-- Settles O55: one lemma above for each direction in which a register can change. -/
theorem writersOfChainConfig : Obligations.WritersOfChainConfig := by
  intro s t hstep hx
  have hw := step_write hstep
  exact ⟨hw.localAddress_writer hx, hw.chainLength_writer hx, hw.propagation_clearer hx,
    hw.propagation_setter, hw.busMode_clearer hx, hw.busMode_setter⟩

end Sys2Proof.Machine
end

section
/-! Obligation O51: the framers' invariant and the FIFOs' bound (10_state.md R40, R41). Every operation
but the framer's step moves no framer (`KeepsBuffers`), and that step keeps the framer's invariant
(`framerStep_framerInv`). -/

namespace Sys2Proof.Machine

open Sys2Proof Host

/-- The framers' invariant and the FIFOs' bound. -/
def BuffersInv (s : State) : Prop := FramerInv s.cfg s.frUp ∧ FramerInv s.cfg s.frDown ∧ FifoInv s

theorem KeepsBuffers.buffersInv {s t : State} (k : KeepsBuffers s t) (h : BuffersInv s) : BuffersInv t := by
  obtain ⟨hup, hdown, hfifo⟩ := h
  exact ⟨by rw [k.cfg, k.frUp]; exact hup, by rw [k.cfg, k.frDown]; exact hdown, k.fifo hfifo⟩

/-- A byte consumed by a port's framer keeps both framers' invariant (R150). -/
theorem framed_buffersInv (p : Port) (b : Byte) {s : State} (h : BuffersInv s) :
    BuffersInv (framed p b s) := by
  obtain ⟨hup, hdown, hfifo⟩ := h
  have htx : FifoInv (framed p b s) := by simpa [FifoInv] using hfifo
  cases p with
  | up =>
    have hsame := framed_framer_same .up b s
    have hother := framed_framer_other .up b s
    simp only [State.framer, Port.other] at hsame hother
    exact ⟨by rw [framed_cfg, hsame]; exact framerStep_framerInv b hup,
      by rw [framed_cfg, hother]; exact hdown, htx⟩
  | down =>
    have hsame := framed_framer_same .down b s
    have hother := framed_framer_other .down b s
    simp only [State.framer, Port.other] at hsame hother
    exact ⟨by rw [framed_cfg, hother]; exact hup,
      by rw [framed_cfg, hsame]; exact framerStep_framerInv b hdown, htx⟩

theorem keepsBuffers_noteUpstream (p : Port) (s : State) : KeepsBuffers s (noteUpstream p s) := by
  cases p <;> exact keepsBuffers_of_eq rfl rfl rfl rfl rfl

theorem keepsBuffers_beforeExec (p : Port) (s : State) : KeepsBuffers s (beforeExec p s) := by
  cases p <;> exact keepsBuffers_of_eq rfl rfl rfl rfl rfl

theorem keepsBuffers_nodeTransitionComplete (s : State) : KeepsBuffers s (nodeTransitionComplete s) := by
  unfold nodeTransitionComplete
  split
  · exact keepsBuffers_nodeSend ..
  · exact .refl s

/-- The state in which a byte is framed keeps the buffers (R89, R150). -/
theorem received_keepsBuffers {s s1 : State} {p : Port} {b : Byte}
    (h : s.cfg.role = .node ∧ s1 = forwardReceived p b (beginEvent s) ∨
      s.cfg.role = .commander ∧ p = .down ∧ s1 = beginEvent s) : KeepsBuffers s s1 := by
  rcases h with ⟨-, rfl⟩ | ⟨-, -, rfl⟩
  · exact (keepsBuffers_beginEvent s).trans (keepsBuffers_forwardReceived ..)
  · exact keepsBuffers_beginEvent s

/-- The state in which an instruction is executed keeps the bounds (R150, R151). -/
theorem arrival_buffersInv (p : Port) (b : Byte) {s : State} (h : BuffersInv s) :
    BuffersInv (arrival p b s) := by
  have hbegin := (keepsBuffers_beginEvent s).buffersInv h
  unfold arrival
  split
  · exact (keepsBuffers_beforeExec ..).buffersInv
      (framed_buffersInv p b ((keepsBuffers_forwardReceived ..).buffersInv hbegin))
  · exact (keepsBuffers_beforeExec ..).buffersInv (framed_buffersInv p b hbegin)

/-- A transmitted byte leaves the rest of its FIFO (R55). -/
theorem fifoInv_setTxq_tail {s : State} {p : Port} {b : Byte} {q : List Byte} (hq : s.txq p = b :: q)
    (h : FifoInv s) : FifoInv (s.setTxq p q) := by
  obtain ⟨hup, hdown⟩ := h
  cases p with
  | up =>
    rw [show s.txUp = b :: q from hq, List.length_cons] at hup
    exact ⟨Nat.le_of_succ_le hup, hdown⟩
  | down =>
    rw [show s.txDown = b :: q from hq, List.length_cons] at hdown
    exact ⟨hup, Nat.le_of_succ_le hdown⟩

/-- After an external reset the framers and FIFOs are empty (R390). -/
theorem resetWith_buffersInv (cfg : Config) (now : U32) (k : Bool) :
    BuffersInv (State.resetWith cfg now k) :=
  ⟨framerInv_of_empty (Nat.zero_le 4) rfl nofun, framerInv_of_empty (Nat.zero_le 4) rfl nofun,
    Nat.zero_le _, Nat.zero_le _⟩

/-- Every step keeps the bounds. -/
theorem step_buffersInv {s t : State} (h : BuffersInv s) (hstep : step s = .next t) : BuffersInv t := by
  have hbegin := (keepsBuffers_beginEvent s).buffersInv h
  cases step_cases hstep with
  | idle => exact h
  | dropped => exact (keepsBuffers_raise ..).buffersInv hbegin
  | busDiscard => exact hbegin
  | captured p b s1 _ _ _ h1 => exact framed_buffersInv p b ((received_keepsBuffers h1).buffersInv h)
  | badFrame p b s1 r _ _ _ h1 =>
    exact (keepsBuffers_raise ..).buffersInv
      (framed_buffersInv p b ((received_keepsBuffers h1).buffersInv h))
  | unknownCode p b s1 _ _ _ h1 =>
    exact (keepsBuffers_noteUpstream ..).buffersInv
      (framed_buffersInv p b ((received_keepsBuffers h1).buffersInv h))
  | instr p b i t _ _ _ he => exact (exec_keepsBuffers he).buffersInv (arrival_buffersInv p b h)
  | txDone p b q rest _ hq =>
    obtain ⟨hup, hdown, hfifo⟩ := hbegin
    have hrest : BuffersInv ((beginEvent s).setTxq p q) :=
      ⟨by simpa using hup, by simpa using hdown,
        fifoInv_setTxq_tail (by rw [beginEvent_txq]; exact hq) hfifo⟩
    exact (keepsBuffers_emit ..).buffersInv hrest
  | nodeTick now => exact ((keepsBuffers_takeTime ..).trans (keepsBuffers_nodeTick _)).buffersInv hbegin
  | commanderTick now =>
    exact ((keepsBuffers_takeTime ..).trans (keepsBuffers_commanderTick _)).buffersInv hbegin
  | completion => exact (keepsBuffers_nodeTransitionComplete _).buffersInv hbegin
  | panicRequest x => exact (keepsBuffers_originate ..).buffersInv hbegin
  | hostCall op rest t _ _ he => exact (keepsBuffers_hostCall he).buffersInv hbegin
  | externalReset now => exact resetWith_buffersInv s.cfg now true
  | touchLevel => exact hbegin

/-- Settles O51: the bounds are kept by every case of a step. -/
theorem bufferBoundsKept : Obligations.BufferBoundsKept :=
  fun _ _ => step_buffersInv

end Sys2Proof.Machine
end

section
/-! Obligations O52 and O53: the commander between steps (10_state.md R47, R48; 44_commander.md). A procedure that
goes on ends in a fresh `request`, whose entry is the newest of the ring, or in IDLE, where nothing is awaited:
both need only the bounds `RegsInRange`, which every operation keeps. -/

namespace Sys2Proof.Machine

open Sys2Proof Host

/-- The bounds that hold whatever procedure runs: the ring's eight entries (R47) and the ranges of R48. -/
def RegsInRange (c : CommanderRegs) : Prop := c.ring.length = 8 ∧ c.i ≤ 253 ∧ c.recA ≤ 253

theorem regsInRange_of_commanderInv {c : CommanderRegs} (h : CommanderInv c) : RegsInRange c := by
  obtain ⟨hring, -, -, hi, ha, -⟩ := h
  exact ⟨hring, hi, ha⟩

/-! ## The two ways a procedure leaves the registers -/

/-- With no procedure running only the bounds are asked. -/
theorem commanderInv_of_idle {c : CommanderRegs} (hidle : c.proc = .idle) (h : RegsInRange c) :
    CommanderInv c := by
  obtain ⟨hring, hi, ha⟩ := h
  have hnot : ¬c.proc ≠ .idle := fun hne => hne hidle
  exact ⟨hring, by simp [PhaseOf, hidle], fun hne => absurd hne hnot, hi, ha, fun hne => absurd hne hnot,
    fun hne => absurd hne hnot, fun hne => absurd hne hnot⟩

/-- After a request the awaited pid is that of the ring's newest entry, which is valid (R321, R323). -/
theorem request_awaits {d : Byte} {n : CmdName} {data : List Byte} {ack : Bool} {s : State}
    (h : s.cmdr.ring.length = 8) :
    ∃ e, (request d n data ack s).cmdr.ring[((request d n data ack s).cmdr.ringW - 1).val]? = some e ∧
      e.valid = true ∧ e.pid = (request d n data ack s).cmdr.waitPid := by
  simp only [request_eq]
  exact ⟨_, ring_newest _ (by rw [List.length_map, h]), rfl, rfl⟩

/-- What a request leaves of the commander's registers. -/
theorem request_regsInRange {d : Byte} {n : CmdName} {data : List Byte} {ack : Bool} {s : State}
    (h : RegsInRange s.cmdr) : RegsInRange (request d n data ack s).cmdr := by
  obtain ⟨hring, hi, ha⟩ := h
  simp only [request_eq]
  exact ⟨by rw [List.length_set, List.length_map, hring], hi, ha⟩

@[simp] theorem request_cmdr_i (d : Byte) (n : CmdName) (data : List Byte) (ack : Bool) (s : State) :
    (request d n data ack s).cmdr.i = s.cmdr.i := by rw [request_eq]

@[simp] theorem request_cmdr_recA (d : Byte) (n : CmdName) (data : List Byte) (ack : Bool) (s : State) :
    (request d n data ack s).cmdr.recA = s.cmdr.recA := by rw [request_eq]

/-- With a procedure running its phase awaits the ring's newest entry, on an address that can be assigned. -/
theorem commanderInv_of_awaiting {c : CommanderRegs} (h : RegsInRange c) (hphase : PhaseOf c)
    (hawait : ∃ e, c.ring[(c.ringW - 1).val]? = some e ∧ e.valid = true ∧ e.pid = c.waitPid)
    (hi : c.phase = .aWait ∨ c.phase = .eWait ∨ c.phase = .mWait → c.i ≤ 252)
    (ha : c.phase = .raWait ∨ c.phase = .reWait → c.recA ≤ 252)
    (hd : c.phase = .sWait → c.waitDest ≤ maxNodeAddress) : CommanderInv c := by
  obtain ⟨hring, hi253, ha253⟩ := h
  exact ⟨hring, hphase, fun _ => hawait, hi253, ha253, fun _ => hi, fun _ => ha, fun _ => hd⟩

/-- A request after which a phase waits on an assignable address (R330 to R337). -/
theorem commanderInv_enter_request {d : Byte} {n : CmdName} {data : List Byte} {ack : Bool} {s : State}
    {p : Proc} {ph : Phase} (h : RegsInRange s.cmdr)
    (hphase : PhaseOf { s.cmdr with proc := p, phase := ph }) (hsend : ph ≠ .sWait)
    (hi : ph = .aWait ∨ ph = .eWait ∨ ph = .mWait → s.cmdr.i ≤ 252)
    (ha : ph = .raWait ∨ ph = .reWait → s.cmdr.recA ≤ 252) :
    CommanderInv (enter p ph (request d n data ack s)).cmdr := by
  have hrange := request_regsInRange (d := d) (n := n) (data := data) (ack := ack) h
  have hawait := request_awaits (d := d) (n := n) (data := data) (ack := ack) h.1
  have hri := request_cmdr_i d n data ack s
  have hra := request_cmdr_recA d n data ack s
  generalize request d n data ack s = r at *
  exact commanderInv_of_awaiting hrange hphase hawait (fun hp => hri.trans_le (hi hp))
    (fun hp => hra.trans_le (ha hp)) fun hp => absurd hp hsend

/-! ## The procedures -/

theorem regsInRange_setI {s : State} {k : Nat} (hk : k ≤ 253) (h : RegsInRange s.cmdr) :
    RegsInRange (setI k s).cmdr :=
  ⟨h.1, hk, h.2.2⟩

/-- The registers after the length has been announced and the procedure ended (R333, R335). -/
theorem goIdle_announceLength_cmdr (n : Nat) (s : State) :
    (goIdle (announceLength n s)).cmdr = { s.cmdr with chainLength := u8 n, proc := .idle } := by
  rw [goIdle, announceLength_cmdr]

theorem commanderInv_goIdle_announceLength (n : Nat) {s : State} (h : RegsInRange s.cmdr) :
    CommanderInv (goIdle (announceLength n s)).cmdr := by
  rw [goIdle_announceLength_cmdr]
  exact commanderInv_of_idle rfl h

theorem commanderInv_finishDiscovery (n : Nat) (ok : Bool) {s : State} (h : RegsInRange s.cmdr) :
    CommanderInv (finishDiscovery n ok s).cmdr := by
  rw [finishDiscovery, emit_cmdr]
  exact commanderInv_goIdle_announceLength n h

theorem commanderInv_assignNext {s : State} (h : RegsInRange s.cmdr) :
    CommanderInv (assignNext s).cmdr := by
  obtain ⟨-, he⟩ | ⟨hne, he⟩ := assignNext_cases s <;> rw [he]
  · exact commanderInv_finishDiscovery 253 true h
  · have hi : s.cmdr.i ≤ 252 := by have := h.2.1; omega
    exact commanderInv_enter_request h (.inl rfl) (by simp) (fun _ => hi) (by simp)

theorem commanderInv_measureFinish {s : State} (h : RegsInRange s.cmdr) :
    CommanderInv (measureFinish s).cmdr :=
  commanderInv_goIdle_announceLength s.cmdr.i h

theorem commanderInv_measureNext {s : State} (h : RegsInRange s.cmdr) :
    CommanderInv (measureNext s).cmdr := by
  obtain ⟨-, he⟩ | ⟨hne, he⟩ := measureNext_cases s <;> rw [he]
  · exact commanderInv_goIdle_announceLength 253 h
  · have hi : s.cmdr.i ≤ 252 := by have := h.2.1; omega
    exact commanderInv_enter_request h (.inr (.inr rfl)) (by simp) (fun _ => hi) (by simp)

theorem commanderInv_measureStart {s : State} (h : RegsInRange s.cmdr) :
    CommanderInv (measureStart s).cmdr :=
  commanderInv_measureNext (regsInRange_setI (Nat.zero_le _) h)

theorem commanderInv_startRecovery {s : State} (h : RegsInRange s.cmdr) :
    CommanderInv (startRecovery s).cmdr := by
  obtain ⟨s1, rfl, ⟨ha, he⟩ | ⟨ha, he⟩⟩ := startRecovery_cases s <;> rw [he]
  · exact commanderInv_measureStart ⟨h.1, h.2.1, ha.le⟩
  · exact commanderInv_enter_request ⟨h.1, h.2.1, Nat.le_succ_of_le ha⟩ (.inl rfl) (by simp) (by simp)
      fun _ => ha

/-- Every procedure goes on from its phase within the invariant (R331 to R338). -/
theorem commanderInv_continueProc {r : WaitResult} {s : State} (hrun : s.cmdr.proc ≠ .idle)
    (h : CommanderInv s.cmdr) : CommanderInv (continueProc r s).cmdr := by
  have hb := regsInRange_of_commanderInv h
  obtain ⟨-, -, -, -, -, hi, ha, -⟩ := id h
  have hnext : s.cmdr.phase = .aWait ∨ s.cmdr.phase = .eWait ∨ s.cmdr.phase = .mWait →
      s.cmdr.i + 1 ≤ 253 := fun hp => Nat.succ_le_succ (hi hrun hp)
  unfold continueProc
  split
  next hp =>
    unfold assignAnswered
    split
    · exact h
    · exact commanderInv_finishDiscovery _ _ hb
    · split
      · exact commanderInv_enter_request hb (.inr rfl) (by simp) (fun _ => hi hrun (.inl hp)) (by simp)
      · exact commanderInv_assignNext (regsInRange_setI (hnext (.inl hp)) (by simpa using hb))
  next hp =>
    unfold enableAnswered
    split
    · exact h
    · exact commanderInv_assignNext (regsInRange_setI (hnext (.inr (.inl hp))) hb)
    · exact commanderInv_finishDiscovery _ _ hb
  next hp =>
    unfold recoveryAssignAnswered
    split
    · exact h
    · exact commanderInv_measureStart hb
    · split
      · exact commanderInv_enter_request hb (.inr (.inl rfl)) (by simp) (by simp)
          fun _ => ha hrun (.inl hp)
      · exact commanderInv_measureStart (by simpa using hb)
  next =>
    unfold recoveryEnableAnswered
    split
    · exact h
    · exact commanderInv_measureStart hb
    · exact commanderInv_measureStart hb
  next hp =>
    unfold measureAnswered
    split
    · exact h
    · exact commanderInv_measureNext (regsInRange_setI (hnext (.inr (.inr hp))) hb)
    · exact commanderInv_measureFinish hb
  next =>
    unfold sendAnswered
    split
    · exact h
    · exact commanderInv_of_idle rfl hb
    · exact commanderInv_of_idle rfl hb

theorem commanderInv_commanderTick {s : State} (h : CommanderInv s.cmdr) :
    CommanderInv (commanderTick s).cmdr := by
  have hwait : CommanderInv (resolveWait s).cmdr := by
    obtain ⟨-, he⟩ | ⟨-, -, he⟩ | ⟨hrun, -, he⟩ | ⟨hrun, -, he⟩ := resolveWait_cases s <;> rw [he]
    · exact h
    · exact h
    · exact commanderInv_continueProc hrun h
    · exact commanderInv_continueProc (by exact hrun) (by exact h)
  obtain ⟨-, he⟩ | ⟨-, -, he⟩ := commanderTick_cases s <;> rw [he]
  · exact hwait
  · exact commanderInv_startRecovery (regsInRange_of_commanderInv hwait)

/-! ## Host calls -/

/-- An acknowledged send waits on its own request, to an assignable address; any other send changes no register
(R338). -/
theorem commanderInv_commandCall {d : Byte} {n : CmdName} {data : List Byte} {want : Bool} {s : State}
    (h : CommanderInv s.cmdr) : CommanderInv (commandCall d n data want s).cmdr := by
  have hb := regsInRange_of_commanderInv h
  unfold commandCall
  simp only
  split
  next hwaits =>
    have hrange := request_regsInRange (d := d) (n := n) (data := data) (ack := ack1 s.cfg && want) hb
    have hawait := request_awaits (d := d) (n := n) (data := data) (ack := ack1 s.cfg && want) hb.1
    have hdest := hwaits.2.1
    generalize request d n data (ack1 s.cfg && want) s = r at *
    exact commanderInv_of_awaiting hrange rfl hawait (by simp [enter]) (by simp [enter]) fun _ => hdest
  next => simpa using h

theorem commanderInv_hostCall {op : HostOp} {s t : State} (h : CommanderInv s.cmdr)
    (hcall : hostCall op s = .next t) : CommanderInv t.cmdr := by
  obtain ⟨-, rfl⟩ | ⟨-, d, n, data, w, -, -, rfl⟩ | ⟨hidle, -, rfl⟩ | ⟨-, str, -, rfl⟩ :=
    hostCall_cases hcall
  · exact h
  · exact commanderInv_commandCall h
  · have hb := regsInRange_of_commanderInv h
    have hreset : (beginReset s).cmdr = { s.cmdr with chainLength := 0 } := by simp [beginReset]
    unfold beginDiscovery
    split
    · exact commanderInv_assignNext (regsInRange_setI (Nat.zero_le _) (by rw [hreset]; exact hb))
    · rw [emit_cmdr, hreset]
      exact commanderInv_of_idle hidle hb
  · simpa using h

/-! ## Packets -/

/-- An acknowledged entry stays valid and of its pid, so that the awaited request is still there (R322). -/
theorem commanderInv_ringAck (pid : U16) {s : State} (h : CommanderInv s.cmdr) :
    CommanderInv (ringAck pid s).cmdr := by
  obtain ⟨hring, hphase, hawait, hrange⟩ := h
  refine ⟨(List.length_map _).trans hring, hphase, fun hrun => ?_, hrange⟩
  obtain ⟨e, he, hvalid, hpid⟩ := hawait hrun
  refine ⟨ackPid pid e, ?_, by rw [ackPid_valid, hvalid], by rw [ackPid_pid]; exact hpid⟩
  simp only [ringAck, List.getElem?_map, he, Option.map_some]

theorem commanderInv_commanderRule (i : Instr) {s : State} (h : CommanderInv s.cmdr) :
    CommanderInv (commanderRule i s).cmdr := by
  cases i with
  | announce p =>
    rw [commanderRule, commanderAnnounce]
    split
    · rw [commanderSend_cmdr]; exact h
    · exact h
  | probeResponse p => exact commanderInv_ringAck _ h
  | ack p => exact commanderInv_ringAck _ h
  | _ => exact h

/-- An executed instruction keeps the invariant, in either role. -/
theorem commanderInv_exec {i : Instr} {s t : State} (h : CommanderInv s.cmdr) (he : exec i s = .next t) :
    CommanderInv t.cmdr := by
  obtain rfl | rfl | ⟨-, -, -, -, ⟨-, -, rfl⟩ | ⟨-, rfl⟩⟩ | ⟨-, rfl⟩ := exec_cases he
  · exact h
  · exact h
  · rw [ackIfRequested_cmdr, nodeRule_cmdr]; exact h
  · rw [nodeRule_cmdr]; exact h
  · exact commanderInv_commanderRule i h

/-! ## The obligations -/

/-- The registers right after a reset (R390). -/
theorem commanderInv_reset : CommanderInv CommanderRegs.reset :=
  commanderInv_of_idle rfl ⟨rfl, Nat.zero_le _, Nat.zero_le _⟩

/-- Settles O52: every case of a step keeps the invariant. -/
theorem commanderInvariantKept : Obligations.CommanderInvariantKept := by
  intro s t h hstep
  cases step_cases hstep with
  | idle => exact h
  | dropped => exact h
  | busDiscard => exact h
  | captured p b s1 _ _ _ h1 => rw [framed_cmdr, (received_cfg_cmdr h1).2]; exact h
  | badFrame p b s1 r _ _ _ h1 => rw [raise_cmdr, framed_cmdr, (received_cfg_cmdr h1).2]; exact h
  | unknownCode p b s1 _ _ _ h1 => rw [noteUpstream_cmdr, framed_cmdr, (received_cfg_cmdr h1).2]; exact h
  | instr p b i t _ _ _ he => exact commanderInv_exec (by rw [arrival_cmdr]; exact h) he
  | txDone p b q rest => rw [emit_cmdr, setTxq_cmdr, beginEvent_cmdr]; exact h
  | nodeTick now => rw [nodeTick_cmdr, takeTime_cmdr, beginEvent_cmdr]; exact h
  | commanderTick now => exact commanderInv_commanderTick h
  | completion => rw [nodeTransitionComplete_cmdr, beginEvent_cmdr]; exact h
  | panicRequest x => rw [nodePanicRequest_cmdr, beginEvent_cmdr]; exact h
  | hostCall op rest t _ _ he => exact commanderInv_hostCall (by rw [beginEvent_cmdr]; exact h) he
  | externalReset => exact commanderInv_reset
  | touchLevel => exact h

/-- Settles O53: each invariant at the reset values, for every configuration. -/
theorem invariantsHoldAtReset : Obligations.InvariantsHoldAtReset := by
  intro cfg now k _
  obtain ⟨hup, hdown, hfifo⟩ := resetWith_buffersInv cfg now k
  exact ⟨addressInv_of_reset rfl rfl rfl, ⟨nofun, nofun⟩, hup, hdown, hfifo, commanderInv_reset⟩

end Sys2Proof.Machine
end

section
/-! Obligations O32 to O36, O39 and O58: a whole step (60_exceptions.md R364, R365) and the reception of a byte
(40_framer.md R150, R151). A byte that is framed is handled by `acceptByte` in one state at either role,
`received`: what the obligations write out in full is that state. -/

namespace Sys2Proof.Machine

open Sys2Proof Host

/-! ## Every instruction answers -/

/-- Settles O33: every instruction is its rule behind the shared checks, a total function. -/
theorem everyInstructionCompletes : Obligations.EveryInstructionCompletes :=
  fun i s => ⟨_, exec_eq_receive i s⟩

/-! ## The state in which a byte is framed -/

/-- The state in which a byte is framed: at a node it has been forwarded first (R89, R150). -/
def received (p : Port) (b : Byte) (s : State) : State :=
  match s.cfg.role with
  | .node => forwardReceived p b (beginEvent s)
  | .commander => beginEvent s

theorem received_of_node {s : State} (p : Port) (b : Byte) (h : s.cfg.role = .node) :
    received p b s = forwardReceived p b (beginEvent s) := by
  unfold received; rw [h]

theorem received_of_commander {s : State} (p : Port) (b : Byte) (h : s.cfg.role = .commander) :
    received p b s = beginEvent s := by
  unfold received; rw [h]

@[simp] theorem received_cfg (p : Port) (b : Byte) (s : State) : (received p b s).cfg = s.cfg := by
  unfold received; split <;> simp

@[simp] theorem received_node_regs (p : Port) (b : Byte) (s : State) : (received p b s).node = s.node := by
  unfold received; split <;> simp

@[simp] theorem received_now (p : Port) (b : Byte) (s : State) : (received p b s).now = s.now := by
  unfold received; split <;> simp

@[simp] theorem received_framer (p q : Port) (b : Byte) (s : State) :
    (received p b s).framer q = s.framer q := by
  unfold received; split <;> simp

/-- `received` written out: the byte goes to the other port where the node propagates outside bus mode, and is
dropped with TX_OVERFLOW where there is no room (R89). -/
theorem received_eq (p : Port) (b : Byte) (s : State) :
    received p b s =
      if s.cfg.role = .node ∧ s.node.propagationMode = true ∧ s.node.busMode = false then
        if (s.txq p.other).length < s.cfg.txFifoDepth then
          (beginEvent s).setTxq p.other (s.txq p.other ++ [b])
        else raise (.txOverflow p.other) (beginEvent s)
      else beginEvent s := by
  cases hr : s.cfg.role with
  | node => simp [received_of_node p b hr, forwardReceived, forward]
  | commander => simp [received_of_commander p b hr]

/-- The first input is the byte to be received. -/
theorem inputs_of_nextByte {s : State} {p : Port} {b : Byte} (h : nextByte s = some (p, b)) :
    ∃ rest, s.inputs = .rxByte p b :: rest := by
  unfold nextByte at h
  split at h
  · next q c rest heq =>
    obtain ⟨rfl, rfl⟩ : q = p ∧ c = b := by simpa using h
    exact ⟨rest, heq⟩
  · cases h

/-- At a node a byte is framed that is not blocked and not from DOWN in bus mode (R90, R91). -/
theorem framesByte_node_iff {s : State} {p : Port} (hr : s.cfg.role = .node) :
    framesByte s p = true ↔ rxBlocked p s = false ∧ ¬(s.node.busMode = true ∧ p = .down) := by
  simp [framesByte, hr, imp_iff_not_or]

/-- At the commander a byte from DOWN is framed that is not blocked (R90, R151). -/
theorem framesByte_commander_iff {s : State} {p : Port} (hr : s.cfg.role = .commander) :
    framesByte s p = true ↔ rxBlocked p s = false ∧ p = .down := by
  simp [framesByte, hr]

@[simp] theorem rxBlocked_beginEvent (p : Port) (s : State) : rxBlocked p (beginEvent s) = rxBlocked p s := by
  cases p <;> rfl

/-- A step that frames a byte, at either role (R150, R151). -/
theorem step_of_framesByte {s : State} {p : Port} {b : Byte} (hb : nextByte s = some (p, b))
    (hf : framesByte s p = true) : step s = acceptByte p b (received p b s) := by
  obtain ⟨rest, hi⟩ := inputs_of_nextByte hb
  rw [step_of_inputs hi]
  cases hr : s.cfg.role with
  | node =>
    obtain ⟨hblock, hbus⟩ := (framesByte_node_iff hr).mp hf
    rw [handleEvent_rxByte_node p b (by rw [beginEvent_cfg, hr]), nodeRx, rxBlocked_beginEvent,
      if_neg (by simp [hblock]), beginEvent_node, if_neg hbus, received_of_node p b hr]
  | commander =>
    obtain ⟨hblock, rfl⟩ := (framesByte_commander_iff hr).mp hf
    rw [handleEvent_rxByte_commander b (by rw [beginEvent_cfg, hr]), commanderRx, rxBlocked_beginEvent,
      if_neg (by simp [hblock]), received_of_commander .down b hr]

/-- A byte that completes no frame leaves the framer's event, if any. -/
theorem step_of_no_frame {s : State} {p : Port} {b : Byte} (hb : nextByte s = some (p, b))
    (hf : framesByte s p = true) (hc : (framerStep s.cfg (s.framer p) b).frame = none) :
    step s = .next (framed p b (received p b s)) := by
  rw [step_of_framesByte hb hf, acceptByte, received_cfg, received_framer, hc]

/-- A byte that completes a frame has it decoded. -/
theorem step_of_frame {s : State} {p : Port} {b : Byte} {c : List Byte} (hb : nextByte s = some (p, b))
    (hf : framesByte s p = true) (hc : (framerStep s.cfg (s.framer p) b).frame = some c) :
    step s = runFrame p c (framed p b (received p b s)) := by
  rw [step_of_framesByte hb hf, acceptByte, received_cfg, received_framer, hc]

/-- The framer's part of a reception, with the event written out. -/
theorem framed_received (p : Port) (b : Byte) (s : State) :
    framed p b (received p b s) =
      raiseOption ((framerStep s.cfg (s.framer p) b).event.map fun e => e.on p)
        ((received p b s).setFramer p (framerStep s.cfg (s.framer p) b).framer) := by
  rw [framed, received_cfg, received_framer]

/-- A byte that completes a frame raises no framer event (R152). -/
theorem framerStep_event_of_frame {cfg : Config} {f : Framer} {b : Byte} {c : List Byte}
    (h : (framerStep cfg f b).frame = some c) : (framerStep cfg f b).event = none := by
  obtain ⟨-, he⟩ | ⟨-, -, he⟩ | ⟨-, -, -, he⟩ | ⟨-, -, -, d, -, he⟩ | ⟨-, -, -, -, he⟩ :=
    framerStep_cases cfg f b <;> simp [he] at h ⊢

/-- Where the byte completes a frame, the framer's part of a reception is the framer alone. -/
theorem framed_received_of_frame {p : Port} {b : Byte} {s : State} {c : List Byte}
    (hc : (framerStep s.cfg (s.framer p) b).frame = some c) :
    framed p b (received p b s) =
      (received p b s).setFramer p (framerStep s.cfg (s.framer p) b).framer := by
  rw [framed_received, framerStep_event_of_frame hc]; rfl

/-! ## The decoded instruction -/

/-- The instruction of a step comes from a byte that is framed and completes its frame. -/
theorem frame_of_nextInstr {s : State} {p q : Port} {b : Byte} {i : Instr} (hb : nextByte s = some (p, b))
    (hi : nextInstr s = some (q, i)) :
    q = p ∧ framesByte s p = true ∧
      ∃ c, (framerStep s.cfg (s.framer p) b).frame = some c ∧ decode s.cfg c = .instr i := by
  unfold nextInstr at hi
  simp only [hb] at hi
  split at hi
  · cases hi
  · next hf =>
    split at hi
    · cases hi
    · next c hc =>
      split at hi
      · next j hd =>
        obtain ⟨rfl, rfl⟩ : p = q ∧ j = i := by simpa using hi
        exact ⟨rfl, by simpa using hf, c, hc, hd⟩
      · cases hi

/-- A step runs the decoded instruction, its packet's arrival noted (R150, R260). -/
theorem step_of_nextInstr {s : State} {p : Port} {b : Byte} {i : Instr} (hb : nextByte s = some (p, b))
    (hi : nextInstr s = some (p, i)) :
    step s = exec i (beforeExec p
      ((received p b s).setFramer p (framerStep s.cfg (s.framer p) b).framer)) := by
  obtain ⟨-, hf, c, hc, hd⟩ := frame_of_nextInstr hb hi
  rw [step_of_frame hb hf hc, framed_received_of_frame hc, runFrame, setFramer_cfg, received_cfg, hd]

/-- `beforeExec` written out (R150, R260). -/
theorem beforeExec_eq (p : Port) (s : State) :
    beforeExec p s = { s with
      senderPort := p
      node := { s.node with lastUpRx := if p = .up then s.now else s.node.lastUpRx } } := by
  cases p <;> rfl

/-- `noteUpstream` written out (R370). -/
theorem noteUpstream_eq (p : Port) (s : State) :
    noteUpstream p s =
      { s with node := { s.node with lastUpRx := if p = .up then s.now else s.node.lastUpRx } } := by
  cases p <;> rfl

/-- Settles O32: the step's equation, with the state of reception and the arrival written out. -/
theorem stepRunsTheDecodedInstruction : Obligations.StepRunsTheDecodedInstruction := by
  intro s s1 s2 p b i hb hi hs1 hs2
  have hreceived : s2 = received p b s := by rw [hs2, hs1, received_eq]; rfl
  have hnode : ((received p b s).setFramer p (framerStep s.cfg (s.framer p) b).framer).node = s.node := by
    simp
  have hnow : ((received p b s).setFramer p (framerStep s.cfg (s.framer p) b).framer).now = s.now := by simp
  rw [step_of_nextInstr hb hi, hreceived]
  simp only [beforeExec_eq, hnode, hnow]

/-! ## Bytes that complete no instruction -/

/-- A frame is dropped exactly as its decoder drops it. -/
theorem decode_eq_dropped_iff {cfg : Config} {c : List Byte} {r : DropReason} :
    decode cfg c = .dropped r ↔ decodeFrame cfg.profile c = .dropped r := by
  unfold decode
  cases decodeFrame cfg.profile c with
  | dropped r' => simp
  | packet p => cases hn : cfg.codes.nameOf p.cmd <;> simp [hn]

/-- No framer hands over a frame of another length than it says (R156; P2 has no such drop). -/
theorem decode_ne_lengthMismatch_of_frame {cfg : Config} {f : Framer} {b : Byte} {c : List Byte}
    (h : (framerStep cfg f b).frame = some c) : decode cfg c ≠ .dropped .lengthMismatch := by
  rw [Ne, decode_eq_dropped_iff]
  cases hp : cfg.profile with
  | p1 =>
    obtain ⟨-, he⟩ | ⟨-, -, he⟩ | ⟨-, -, -, he⟩ | ⟨-, -, -, d, hd, he⟩ | ⟨-, -, -, -, he⟩ :=
      framerStep_cases cfg f b <;> rw [he] at h
    · cases h
    · cases h
    · cases h
    · obtain rfl : d = c := by simpa using h
      rw [completedFrame_p1 hp] at hd
      split at hd
      · next hlen =>
        obtain rfl : f.cap ++ [b] = d := by simpa using hd
        rw [decodeFrame, decodeP1_eq, if_neg (by omega), if_neg (not_not_intro hlen.2)]
        simp
      · cases hd
    · cases h
  | p2 => exact (p2DecoderChecksAndReadsTheFields c _ fun _ => rfl).2.2.2.2.1

/-- A frame that the codec drops raises its event alone (R187). -/
theorem step_of_dropped_frame {s : State} {p : Port} {b : Byte} {c : List Byte} {r : DropReason}
    (hb : nextByte s = some (p, b)) (hf : framesByte s p = true)
    (hc : (framerStep s.cfg (s.framer p) b).frame = some c) (hd : decode s.cfg c = .dropped r) :
    step s = .next (raise (dropEvent r p)
      ((received p b s).setFramer p (framerStep s.cfg (s.framer p) b).framer)) := by
  rw [step_of_frame hb hf hc, framed_received_of_frame hc, runFrame, setFramer_cfg, received_cfg, hd]

/-- A frame of an unknown code only has its arrival from upstream noted (R133, R370). -/
theorem step_of_unknown_frame {s : State} {p : Port} {b : Byte} {c : List Byte} {pkt : Packet}
    (hb : nextByte s = some (p, b)) (hf : framesByte s p = true)
    (hc : (framerStep s.cfg (s.framer p) b).frame = some c) (hd : decode s.cfg c = .unknown pkt) :
    step s = .next (noteUpstream p
      ((received p b s).setFramer p (framerStep s.cfg (s.framer p) b).framer)) := by
  rw [step_of_frame hb hf hc, framed_received_of_frame hc, runFrame, setFramer_cfg, received_cfg, hd]

/-- Settles O36: without a frame the framer's event, with one the codec's answer, each over the state of
reception written out. -/
theorem receivedByteIsForwardedAndFramed : Obligations.ReceivedByteIsForwardedAndFramed := by
  intro s s1 s2 s3 p b hb hf hs1 hs2 hs3
  have hreceived : s3 = (received p b s).setFramer p (framerStep s.cfg (s.framer p) b).framer := by
    rw [hs3, hs2, hs1, received_eq]; rfl
  refine ⟨fun hnone => ?_, fun c hc => ⟨?short, decode_ne_lengthMismatch_of_frame hc, ?odd, ?nibble, ?oversized,
    fun pkt hd => ?unknown⟩⟩
  · rw [step_of_no_frame hb hf hnone, framed_received, ← hreceived]
    refine ⟨fun he => ?_, fun he => ?_, fun he => ?_⟩ <;> rw [he] <;> rfl
  case short => rw [hreceived]; exact step_of_dropped_frame hb hf hc
  case odd => rw [hreceived]; exact step_of_dropped_frame hb hf hc
  case nibble => rw [hreceived]; exact step_of_dropped_frame hb hf hc
  case oversized => rw [hreceived]; exact step_of_dropped_frame hb hf hc
  case unknown =>
    have hnode : s3.node = s.node := by simp [hreceived]
    have hnow : s3.now = s.now := by simp [hreceived]
    rw [step_of_unknown_frame hb hf hc hd, ← hreceived]
    simp only [noteUpstream_eq, hnode, hnow]

/-! ## Discarded bytes -/

/-- A byte blocked for half-duplex raises RX_DROPPED alone, on every port the agent has (R90). -/
theorem step_of_rxBlocked {s : State} {p : Port} {b : Byte} (hb : nextByte s = some (p, b))
    (hport : s.cfg.role = .commander → p = .down) (hblock : rxBlocked p s = true) :
    step s = .next (raise (.rxDropped p) (beginEvent s)) := by
  obtain ⟨rest, hi⟩ := inputs_of_nextByte hb
  rw [step_of_inputs hi]
  cases hr : s.cfg.role with
  | node =>
    rw [handleEvent_rxByte_node p b (by rw [beginEvent_cfg, hr]), nodeRx, rxBlocked_beginEvent, if_pos hblock]
  | commander =>
    obtain rfl := hport hr
    rw [handleEvent_rxByte_commander b (by rw [beginEvent_cfg, hr]), commanderRx, rxBlocked_beginEvent,
      if_pos hblock]

/-- A byte from DOWN at a node in bus mode changes nothing (R91). -/
theorem step_of_busMode {s : State} {b : Byte} (hb : nextByte s = some (.down, b)) (hr : s.cfg.role = .node)
    (hbus : s.node.busMode = true) (hblock : rxBlocked .down s = false) :
    step s = .next (beginEvent s) := by
  obtain ⟨rest, hi⟩ := inputs_of_nextByte hb
  rw [step_of_inputs hi, handleEvent_rxByte_node .down b (by rw [beginEvent_cfg, hr]), nodeRx,
    rxBlocked_beginEvent, if_neg (by simp [hblock]), beginEvent_node, if_pos ⟨hbus, rfl⟩]

/-- Settles O35: the two tests a byte meets before it is framed. -/
theorem discardedBytesChangeNothing : Obligations.DiscardedBytesChangeNothing := by
  intro s p b hb
  refine ⟨fun hdrop hq hport => ?_, fun hr hbus hp hblock => ?_⟩
  · exact step_of_rxBlocked hb hport (by simp [rxBlocked, hdrop, hq])
  · subst hp
    exact step_of_busMode hb hr hbus hblock

/-! ## The enabling command -/

/-- A node's reply goes to UP, so the ACK rule leaves the DOWN FIFO (R236). -/
theorem ackIfRequested_txDown (n : CmdName) (p : Body) (s : State) :
    (ackIfRequested n p s).txDown = s.txDown := by
  unfold ackIfRequested
  split
  · rw [nodeSend_eq]
    obtain ⟨-, he⟩ | ⟨-, he⟩ := send_cases .up _ (freshPid s).2 <;> rw [he] <;> simp
  · rfl

/-- ENABLE_PROPAGATION sends nothing downstream (R223). -/
theorem exec_enablePropagation_txDown {p : Body} {s t : State} (hr : s.cfg.role = .node)
    (h : exec (.enablePropagation p) s = .next t) : t.txDown = s.txDown := by
  obtain rfl | rfl | ⟨-, -, -, -, ⟨-, -, rfl⟩ | ⟨-, rfl⟩⟩ | ⟨hc, -⟩ := exec_cases h
  · rfl
  · rfl
  · rw [ackIfRequested_txDown]; rfl
  · rfl
  · rw [hr] at hc; cases hc

/-- Settles O58: the byte arrives while the node does not propagate yet, and the command sends only up. -/
theorem enablingCommandIsNotForwarded : Obligations.EnablingCommandIsNotForwarded := by
  intro s t p hr hprop hi hstep
  obtain ⟨b, hb⟩ : ∃ b, nextByte s = some (.up, b) := by
    cases hb : nextByte s with
    | none => simp [nextInstr, hb] at hi
    | some q =>
      obtain ⟨port, b⟩ := q
      obtain ⟨rfl, -⟩ := frame_of_nextInstr hb hi
      exact ⟨b, rfl⟩
  have hnot : received .up b s = beginEvent s := by simp [received_eq, hprop]
  rw [step_of_nextInstr hb hi, hnot] at hstep
  rw [exec_enablePropagation_txDown (by simp [hr]) hstep]
  simp

/-! ## Other events -/

/-- A tick breaks the duty of R397 (a). -/
theorem timeDutyBroken_iff (t : U32) (s : State) :
    timeDutyBroken t s = true ↔ s.timeKnown = true ∧ 2 ^ 31 ≤ (t - s.now).toNat := by
  simp only [timeDutyBroken, Bool.and_eq_true, decide_eq_true_eq]

/-- A tick keeps the duty of R397 (a). -/
theorem not_timeDutyBroken {t : U32} {s : State} (h : s.timeKnown = true → (t - s.now).toNat < 2 ^ 31) :
    ¬timeDutyBroken t s = true := fun hbroken =>
  have ⟨hknown, hlate⟩ := (timeDutyBroken_iff t s).mp hbroken
  Nat.not_le.mpr (h hknown) hlate

/-- Without an event the agent waits (R391). -/
theorem step_of_no_input {s : State} (h : s.inputs = []) : step s = .next (startStep s) := by
  rw [step, stepEvent, h]

/-- Settles O39: one equation for each event, by the branch of `handleEvent` it takes. -/
theorem transmissionTouchAndIdleSteps : Obligations.TransmissionTouchAndIdleSteps := by
  refine ⟨fun s p rest hi hport => ⟨fun b q hq => ?_, fun hq => ?_⟩, fun s reading rest hi hlen => ?_,
    fun s t rest hi hknown hlate => ?_, fun s hi => ?_⟩
  · rw [step_of_inputs hi, handleEvent_txDone (s := beginEvent s) p hport, txDone, beginEvent_txq, hq,
      beginEvent_of_inputs hi]
    cases p <;> rfl
  · rw [step_of_inputs hi, handleEvent_txDone (s := beginEvent s) p hport, txDone, beginEvent_txq, hq]
  · rw [step_of_inputs hi, handleEvent, beginEvent_cfg, if_pos hlen, beginEvent_of_inputs hi]
  · have hbroken : timeDutyBroken t (beginEvent s) = true := (timeDutyBroken_iff ..).mpr ⟨hknown, hlate⟩
    rw [step_of_inputs hi, handleEvent, tick, if_pos hbroken]
  · exact step_of_no_input hi

/-! ## Every event under the environment's duties -/

/-- Reception answers a next state, whatever frame it completes. -/
theorem acceptByte_next (p : Port) (b : Byte) (s : State) : ∃ t, acceptByte p b s = .next t := by
  unfold acceptByte
  split
  · exact ⟨_, rfl⟩
  · unfold runFrame
    split
    · exact ⟨_, rfl⟩
    · exact ⟨_, rfl⟩
    · exact everyInstructionCompletes ..

theorem nodeRx_next (p : Port) (b : Byte) (s : State) : ∃ t, nodeRx p b s = .next t := by
  unfold nodeRx
  split
  · exact ⟨_, rfl⟩
  · split
    · exact ⟨_, rfl⟩
    · exact acceptByte_next ..

theorem commanderRx_next (b : Byte) (s : State) : ∃ t, commanderRx b s = .next t := by
  unfold commanderRx
  split
  · exact ⟨_, rfl⟩
  · exact acceptByte_next ..

/-- A host call whose payload a packet can carry answers a next state (R338, R350). -/
theorem hostCall_next {op : HostOp} (s : State)
    (h : ∀ d n data ack, hostCommand op = some (d, n, data, ack) → data.length ≤ 255) :
    ∃ t, hostCall op s = .next t := by
  unfold hostCall
  split
  · exact ⟨_, rfl⟩
  · cases hc : hostCommand op with
    | some q =>
      obtain ⟨d, n, data, w⟩ := q
      rw [acceptedHostCall_command hc, if_neg (Nat.not_lt.mpr (h d n data w hc))]
      exact ⟨_, rfl⟩
    | none =>
      cases op with
      | begin => exact ⟨_, rfl⟩
      | setString str => exact ⟨_, rfl⟩
      | _ => simp [hostCommand] at hc

/-- Settles O34: each duty excludes the one fault of its event. -/
theorem stepsGoOnUnderTheDuties : Obligations.StepsGoOnUnderTheDuties := by
  intro s hduty
  cases hi : s.inputs with
  | nil => exact ⟨_, step_of_no_input hi⟩
  | cons e rest =>
    rw [step_of_inputs hi]
    unfold EnvDuty at hduty
    rw [hi] at hduty
    cases e with
    | rxByte p b =>
      cases hr : s.cfg.role with
      | node => rw [handleEvent_rxByte_node p b (by rw [beginEvent_cfg, hr])]; exact nodeRx_next ..
      | commander =>
        obtain rfl := hduty hr
        rw [handleEvent_rxByte_commander b (by rw [beginEvent_cfg, hr])]
        exact commanderRx_next ..
    | txDone p =>
      obtain ⟨hne, hport⟩ : s.txq p ≠ [] ∧ (s.cfg.role = .commander → p = .down) := hduty
      obtain ⟨b, q, hq⟩ := List.exists_cons_of_ne_nil hne
      rw [handleEvent_txDone (s := beginEvent s) p hport, txDone, beginEvent_txq, hq]
      exact ⟨_, rfl⟩
    | tick t =>
      rw [handleEvent, tick, if_neg (not_timeDutyBroken (s := beginEvent s) hduty)]
      split <;> exact ⟨_, rfl⟩
    | transitionComplete => exact ⟨_, handleEvent_transitionComplete_node hduty⟩
    | panicRequest x => exact ⟨_, handleEvent_panicRequest_node x hduty⟩
    | hostCall op =>
      obtain ⟨hr, hpayload⟩ := hduty
      rw [handleEvent, beginEvent_cfg, hr]
      exact hostCall_next _ hpayload
    | externalReset now => exact ⟨_, rfl⟩
    | touchLevel reading => exact ⟨_, by rw [handleEvent, beginEvent_cfg, if_pos hduty]⟩

end Sys2Proof.Machine
end

section
/-! Obligations O16, O17, O18, O23, O27 and O31: packet ids and the ACK rule (41_codec.md R197, 42_chain_protocol.md
R236), the checks before a rule at either role (43_dispatcher.md section 1, 44_commander.md R339), and the packets
whose rules are left: PROBE, the responses at the commander, and a TOUCH_READ with its ACK. -/

namespace Sys2Proof.Machine

open Sys2Proof Host

/-! ## Packet ids and the ACK rule -/

/-- The counter advances modulo 65536 (R197). -/
theorem pid_succ_eq (v : U16) : v + 1 = BitVec.ofNat 16 ((v.toNat + 1) % 65536) := by
  apply BitVec.eq_of_toNat_eq
  simp

/-- Settles O16: the two profiles of `fresh_pid`. -/
theorem freshPacketIds : Obligations.FreshPacketIds := by
  intro s
  refine ⟨fun hp => ?_, freshPid_p2⟩
  rw [freshPid_p1 hp, pid_succ_eq]

/-- When a node acknowledges a command (R236). -/
theorem ackWanted_iff (cfg : Config) (n : CmdName) (p : Body) :
    ackWanted cfg n p = true ↔
      p.dest ≠ addrBroadcast ∧
        ((cfg.profile = .p1 ∧ p.ack = true) ∨ (cfg.profile = .p2 ∧ n ∈ cfg.ackCommandsP2)) := by
  unfold ackWanted
  cases cfg.profile <;> simp

/-- Settles O17: the rule's condition, and its packet as `nodeSend` builds it. -/
theorem ackRule : Obligations.AckRule := by
  intro n p s
  rw [← ackWanted_iff]
  exact ⟨fun h => if_pos h, fun h => if_neg h⟩

/-- A broadcast is not acknowledged (R236). -/
theorem ackIfRequested_of_broadcast {n : CmdName} {p : Body} (s : State) (h : p.dest = addrBroadcast) :
    ackIfRequested n p s = s :=
  (ackRule n p s).2 fun hw => hw.1 h

/-! ## Packets that are ignored -/

/-- An instruction at a node (R371). -/
theorem exec_of_node {i : Instr} {s : State} (hr : s.cfg.role = .node) :
    exec i s = .next (nodeReceive i.name i.body (nodeRule i) s) := by
  rw [exec_eq_receive, receive, hr]

/-- An instruction at the commander (R371). -/
theorem exec_of_commander {i : Instr} {s : State} (hr : s.cfg.role = .commander) :
    exec i s = .next (commanderReceive i.name i.body (commanderRule i) s) := by
  rw [exec_eq_receive, receive, hr]

theorem nodeAccepts_iff (s : State) (p : Body) :
    nodeAccepts s p = true ↔ p.dest = s.node.localAddress ∨ p.dest = addrBroadcast := by
  simp [nodeAccepts]

theorem commanderAccepts_iff (p : Body) :
    commanderAccepts p = true ↔ p.dest = addrCommander ∨ p.dest = addrBroadcast := by
  simp [commanderAccepts]

theorem payloadShort_iff (s : State) (n : CmdName) (p : Body) :
    payloadShort s n p = true ↔ p.data.length < need s.cfg.touchStateLen n := by
  simp [payloadShort]

/-- A filtered destination has no effect at a node (R262). -/
theorem nodeReceive_of_filtered {n : CmdName} {p : Body} {rule : State → Executed} {s : State}
    (h : ¬(p.dest = s.node.localAddress ∨ p.dest = addrBroadcast)) : nodeReceive n p rule s = s := by
  rw [nodeReceive, if_pos (Bool.eq_false_iff.mpr (mt (nodeAccepts_iff s p).mp h))]

/-- A short payload only raises SHORT_PAYLOAD at a node (R263). -/
theorem nodeReceive_of_short {n : CmdName} {p : Body} {rule : State → Executed} {s : State}
    (hd : p.dest = s.node.localAddress ∨ p.dest = addrBroadcast)
    (hl : p.data.length < need s.cfg.touchStateLen n) :
    nodeReceive n p rule s = raise (.shortPayload n) s := by
  rw [nodeReceive, if_neg (by simp [(nodeAccepts_iff s p).mpr hd]), if_pos ((payloadShort_iff s n p).mpr hl)]

/-- A packet whose class the node does not take from the port has no effect (R261, R232). -/
theorem nodeReceive_of_other_port {n : CmdName} {p : Body} {rule : State → Executed} {s : State}
    (h : Passes n p s) (hport : (cmdClass n).port ≠ some s.senderPort) : nodeReceive n p rule s = s := by
  obtain ⟨-, hd, hl⟩ := h
  rw [nodeReceive, if_neg (by simp [(nodeAccepts_iff s p).mpr hd]),
    if_neg (mt (payloadShort_iff s n p).mp (Nat.not_lt.mpr hl)), if_pos hport]

/-- A filtered destination has no effect at the commander (R339). -/
theorem commanderReceive_of_filtered {n : CmdName} {p : Body} {rule : State → State} {s : State}
    (h : ¬(p.dest = addrCommander ∨ p.dest = addrBroadcast)) : commanderReceive n p rule s = s := by
  rw [commanderReceive, if_pos (Bool.eq_false_iff.mpr (mt (commanderAccepts_iff p).mp h))]

/-- A short payload only raises SHORT_PAYLOAD at the commander (R339). -/
theorem commanderReceive_of_short {n : CmdName} {p : Body} {rule : State → State} {s : State}
    (hd : p.dest = addrCommander ∨ p.dest = addrBroadcast)
    (hl : p.data.length < need s.cfg.touchStateLen n) :
    commanderReceive n p rule s = raise (.shortPayload n) s := by
  rw [commanderReceive, if_neg (by simp [(commanderAccepts_iff p).mpr hd]),
    if_pos ((payloadShort_iff s n p).mpr hl)]

/-- The responses are taken from no port (R261). -/
theorem port_of_response {n : CmdName} (h : n ∈ [.ack, .panic, .readyStatus, .touchState]) :
    (cmdClass n).port = none := by
  revert h; cases n <;> decide

/-- The messages from downstream are taken from DOWN (R261). -/
theorem port_of_upMsg {n : CmdName} (h : n ∈ [.announce, .probeResponse, .terminatorAnnounce]) :
    (cmdClass n).port = some .down := by
  revert h; cases n <;> decide

/-- Every other command is taken from UP (R261). -/
theorem port_of_cmd {n : CmdName}
    (h : n ∉ [.ack, .panic, .readyStatus, .touchState, .announce, .probeResponse, .terminatorAnnounce]) :
    (cmdClass n).port = some .up := by
  revert h; cases n <;> decide

/-- The commander does nothing with a command of CLASS_CMD (R339). -/
theorem commanderRule_of_cmd {i : Instr} (s : State)
    (h : i.name ∉
      [.ack, .panic, .readyStatus, .touchState, .announce, .probeResponse, .terminatorAnnounce]) :
    commanderRule i s = s := by
  cases i with
  | announce p | probeResponse p | terminatorAnnounce p | ack p | panic p | readyStatus p | touchState p =>
    exact absurd (by simp [Instr.name]) h
  | _ => rfl

/-- Settles O18: the checks of each role in their order, for every instruction. -/
theorem ignoredPacketsChangeNothing : Obligations.IgnoredPacketsChangeNothing := by
  intro i s
  refine ⟨fun hr => ?node, fun hr => ?commander⟩
  case node =>
    rw [exec_of_node hr]
    refine ⟨fun hne hnb => ?_, fun hd hl => ?_, fun hpass => ⟨fun hn => ?_, fun hn hp => ?_, fun hn hp => ?_⟩⟩
    · rw [nodeReceive_of_filtered (not_or.mpr ⟨hne, hnb⟩)]
    · rw [nodeReceive_of_short hd hl]
    · rw [nodeReceive_of_other_port hpass (by simp [port_of_response hn])]
    · rw [nodeReceive_of_other_port hpass (by simp [port_of_upMsg hn, hp])]
    · rw [nodeReceive_of_other_port hpass (by simp [port_of_cmd hn, hp])]
  case commander =>
    refine ⟨fun hne hnb => ?_, fun hd hl => ?_, fun hat hn => ?_⟩
    · rw [exec_of_commander hr, commanderReceive_of_filtered (not_or.mpr ⟨hne, hnb⟩)]
    · rw [exec_of_commander hr, commanderReceive_of_short hd hl]
    · rw [exec_atCommander hat, commanderRule_of_cmd s hn]

/-! ## PROBE -/

/-- A PROBE to an assigned node's own address (R227). -/
theorem nodeProbe_of_addressed {p : Body} {s : State} (hd : p.dest = s.node.localAddress)
    (ha : s.node.localAddress ≠ addrNull) : nodeProbe p s = executed (answerProbe p s) :=
  if_pos ⟨hd, ha⟩

/-- A broadcast PROBE from which a node without an address adopts one, under NODE_TO_NODE (R227). -/
theorem nodeProbe_of_adopted {p : Body} {s : State} {a : Byte} (hown : p.dest ≠ s.node.localAddress)
    (hd : p.dest = addrBroadcast) (hm : s.cfg.discoveryMode = .nodeToNode)
    (hu : s.node.chainState = .unassigned ∨ s.node.chainState = .discovering)
    (ha : adoptedAddress p.origin = some a) : nodeProbe p s = executed (adoptAddress p a s) := by
  rw [nodeProbe, if_neg fun h => hown h.1, if_pos ⟨hd, hm, (unassignedState_iff s).mpr hu⟩, ha]

/-- A broadcast PROBE whose origin leaves no assignable address is refused (R227). -/
theorem nodeProbe_of_refused {p : Body} {s : State} (hown : p.dest ≠ s.node.localAddress)
    (hd : p.dest = addrBroadcast) (hm : s.cfg.discoveryMode = .nodeToNode)
    (hu : s.node.chainState = .unassigned ∨ s.node.chainState = .discovering)
    (ha : adoptedAddress p.origin = none) : nodeProbe p s = refusedOperand .probe s := by
  rw [nodeProbe, if_neg fun h => hown h.1, if_pos ⟨hd, hm, (unassignedState_iff s).mpr hu⟩, ha]

/-- Any other PROBE (R227). -/
theorem nodeProbe_of_ignored {p : Body} {s : State}
    (hown : ¬(p.dest = s.node.localAddress ∧ s.node.localAddress ≠ addrNull))
    (hadopt : ¬(p.dest = addrBroadcast ∧ s.cfg.discoveryMode = .nodeToNode ∧
      (s.node.chainState = .unassigned ∨ s.node.chainState = .discovering))) :
    nodeProbe p s = executed s := by
  rw [nodeProbe, if_neg hown, if_neg (by rwa [unassignedState_iff])]

/-- The address adopted from an origin, case by case (R227). -/
theorem adoptedAddress_eq_some {origin a : Byte}
    (h : ((origin = 254 ∨ origin = 253) ∧ a = 0) ∨ (origin.toNat ≤ 251 ∧ a = origin + 1)) :
    adoptedAddress origin = some a := by
  obtain ⟨ho, rfl⟩ | ⟨hle, rfl⟩ := h
  · exact if_pos ho
  · have hne : ¬(origin = addrNull ∨ origin = addrCommander) := by
      rintro (rfl | rfl) <;> exact absurd hle (by decide)
    rw [adoptedAddress, if_neg hne, if_pos (BitVec.le_def.mpr hle)]

/-- No address is adopted from the origins 252 and 255 (R227). -/
theorem adoptedAddress_eq_none {origin : Byte} (h : origin = 252 ∨ origin = 255) :
    adoptedAddress origin = none := by
  obtain rfl | rfl := h <;> decide

/-- The packets of an adoption: the answer upstream, then the node's own probe downstream (R227). -/
theorem adoptAddress_eq (p : Body) (a : Byte) (s : State) :
    ∃ s1 s2,
      s1 = { s with node := { s.node with
        localAddress := a, chainState := .assigned, probeArmed := true, probeStart := s.now } } ∧
      s2 = send .up
        { pid := (freshPid s1).1, origin := a, dest := p.origin, firstHop := a, ack := false,
          cmd := s.cfg.codes.code .probeResponse, data := [hi8 p.pid, lo8 p.pid] } (freshPid s1).2 ∧
      adoptAddress p a s = send .down
        { pid := (freshPid s2).1, origin := a, dest := 255, firstHop := a, ack := false,
          cmd := s.cfg.codes.code .probe, data := [] } (freshPid s2).2 := by
  refine ⟨_, _, rfl, rfl, ?_⟩
  rw [adoptAddress, probeDownstream, nodeSend_eq, answerProbe, nodeSend_eq]
  simp [addrBroadcast, pidPayload]

/-- Settles O23: the branches of PROBE's rule, each behind the shared checks. R213 keeps a broadcast from being a
node's own address. -/
theorem probeResult : Obligations.ProbeResult := by
  intro p s h hinv
  obtain ⟨-, -, -, hnotall⟩ := hinv
  refine ⟨fun hd ha => ?_, fun hd hm hu => ⟨fun a ha => ?_, fun ho => ?_⟩, fun hown hadopt => ?_⟩
  · rw [exec_fromUp_of_executed (i := .probe p) h rfl (nodeProbe_of_addressed hd ha)]
    rfl
  · have hown : p.dest ≠ s.node.localAddress := fun he => hnotall (he.symm.trans hd)
    have hrule := nodeProbe_of_adopted hown hd hm hu (adoptedAddress_eq_some ha)
    obtain ⟨s1, s2, hs1, hs2, hadopt⟩ := adoptAddress_eq p a s
    refine ⟨s1, s2, hs1, hs2, ?_⟩
    rw [exec_fromUp_of_executed (i := .probe p) h rfl hrule,
      ackIfRequested_of_broadcast (p := (Instr.probe p).body) _ hd, hadopt]
  · have hown : p.dest ≠ s.node.localAddress := fun he => hnotall (he.symm.trans hd)
    exact exec_fromUp_of_refused (i := .probe p) h rfl
      (nodeProbe_of_refused hown hd hm hu (adoptedAddress_eq_none ho))
  · exact exec_fromUp_of_executed (i := .probe p) h rfl (nodeProbe_of_ignored hown hadopt)

/-! ## Responses at the commander, TOUCH_READ with its ACK -/

/-- Settles O27: each response meets its rule behind the shared checks (`exec_atCommander`). -/
theorem responsesAtTheCommander : Obligations.ResponsesAtTheCommander :=
  fun _ _ => ⟨fun h => exec_atCommander h, fun h => exec_atCommander h, fun h => exec_atCommander h,
    fun h => exec_atCommander h⟩

/-- Room for two packets is room for both frames (R88). -/
theorem room_pair_iff (s : State) (p : Port) (a b : Packet) :
    Room s p [a, b] ↔
      (s.txq p).length + (encodePacket s.cfg a).length + (encodePacket s.cfg b).length ≤ s.cfg.txFifoDepth := by
  simp [Room, Nat.add_assoc]

/-- A node's packet upstream under P1 with room: the id is taken and the frame appended, nothing else. -/
theorem nodeSend_up_p1 {s : State} {pkt : Packet} {d : Byte} {n : CmdName} {data : List Byte}
    (hp : s.cfg.profile = .p1)
    (hk : pkt =
      { pid := s.pidCounter, origin := s.node.localAddress, dest := d,
        firstHop := s.node.localAddress, ack := false, cmd := s.cfg.codes.code n, data := data })
    (hr : s.txUp.length + (encodePacket s.cfg pkt).length ≤ s.cfg.txFifoDepth) :
    nodeSend .up d n data s =
      { s with pidCounter := s.pidCounter + 1, txUp := s.txUp ++ encodePacket s.cfg pkt } := by
  subst hk
  rw [nodeSend_eq, freshPid_p1 hp, send_of_room (by exact hr)]
  rfl

/-- Settles O31: two packets upstream in a row, each by `nodeSend_up_p1`. -/
theorem touchReadAnswersThenAcks : Obligations.TouchReadAnswersThenAcks := by
  intro p s st ak h hp hack hdest hst hak hroom
  rw [room_pair_iff] at hroom
  have hroom : s.txUp.length + (encodePacket s.cfg st).length + (encodePacket s.cfg ak).length ≤
      s.cfg.txFifoDepth := hroom
  have hanswer : nodeTouchRead p s = executed
      { s with pidCounter := s.pidCounter + 1, txUp := s.txUp ++ encodePacket s.cfg st } :=
    congrArg executed (nodeSend_up_p1 hp hst (by omega))
  have hwanted : ackWanted s.cfg .touchRead p = true :=
    (ackWanted_iff ..).mpr ⟨hdest, .inl ⟨hp, hack⟩⟩
  rw [exec_fromUp_of_executed (i := .touchRead p) h rfl hanswer, ackIfRequested, if_pos (by exact hwanted),
    nodeSend_up_p1 (pkt := ak) (by exact hp) (by exact hak) (by simpa [Nat.add_assoc] using hroom)]
  have hpid : s.pidCounter + 1 + 1 = s.pidCounter + 2 := by bv_omega
  simp only [hpid]

end Sys2Proof.Machine
end

section
/-! Obligations O42 to O46: the commander's procedures (44_commander.md). A tick is `commanderTick`, whose wait ends
by `Answered`, `TimedOut` or `StillWaiting`; what a procedure then does is one equation for each of its parts. -/

namespace Sys2Proof.Machine

open Sys2Proof Host

/-! ## The commander's events -/

/-- A tick that keeps the duty of R397 (a) runs a commander's tick (R364). -/
theorem step_tick_commander {s : State} {t : U32} {rest : List Event} (hi : s.inputs = .tick t :: rest)
    (hr : s.cfg.role = .commander) (ht : s.timeKnown = true → (t - s.now).toNat < 2 ^ 31) :
    step s = .next (commanderTick
      { s with now := t, timeKnown := true, out := [], raised := [], inputs := rest }) := by
  rw [step_of_inputs hi, handleEvent, tick, if_neg (not_timeDutyBroken (s := beginEvent s) ht),
    beginEvent_cfg, hr, beginEvent_of_inputs hi]
  rfl

/-- A host call at the commander (R350). -/
theorem step_hostCall {s : State} {op : HostOp} {rest : List Event} (hi : s.inputs = .hostCall op :: rest)
    (hr : s.cfg.role = .commander) :
    step s = hostCall op { s with out := [], raised := [], inputs := rest } := by
  rw [step_of_inputs hi, handleEvent, beginEvent_cfg, hr, beginEvent_of_inputs hi]

/-! ## The parts of the procedures -/

/-- Whether a node will ACK a command when asked (R320). -/
theorem waitsFor_iff (cfg : Config) (n : CmdName) :
    waitsFor cfg n = true ↔ cfg.profile = .p1 ∨ n ∈ cfg.ackCommandsP2 := by
  simp [waitsFor]

/-- Under P2 the commander's packets do not ask for an ACK (R320). -/
theorem ack1_eq_false {cfg : Config} (h : cfg.profile ≠ .p1) : ack1 cfg = false := decide_eq_false h

/-- A request under P1 with room: its frame is appended and its id registered and awaited, nothing else. -/
theorem request_p1 {s : State} {pkt : Packet} {d : Byte} {n : CmdName} {data : List Byte} {ack : Bool}
    (hp : s.cfg.profile = .p1)
    (hk : pkt = ⟨⟨s.pidCounter, 253, d, 253, ack, data⟩, s.cfg.codes.code n⟩)
    (hr : s.txDown.length + (encodePacket s.cfg pkt).length ≤ s.cfg.txFifoDepth) :
    request d n data ack s =
      { s with
        pidCounter := s.pidCounter + 1
        txDown := s.txDown ++ encodePacket s.cfg pkt
        cmdr := { s.cmdr with
          ring := (s.cmdr.ring.map (clearPid s.pidCounter)).set s.cmdr.ringW.val ⟨true, s.pidCounter, false⟩
          ringW := s.cmdr.ringW + 1
          waitPid := s.pidCounter
          waitStart := s.now } } := by
  rw [request_eq, commanderSend_p1 hp hk hr, freshPid_p1 hp]

/-- The end of discovery or of a measurement: the length is taken and announced, and the procedure is over (R333,
R335). -/
theorem goIdle_announceLength_eq (n : Nat) (s : State) :
    ∃ s1 r, s1 = { s with cmdr := { s.cmdr with chainLength := BitVec.ofNat 8 n } } ∧
      r = commanderSend 255 .setChainLength [BitVec.ofNat 8 n] false s1 ∧
      goIdle (announceLength n s) = { r with cmdr := { s1.cmdr with proc := .idle } } := by
  refine ⟨_, _, rfl, rfl, ?_⟩
  rw [goIdle, announceLength_cmdr]
  rfl

/-- `finish_discovery` also reports to the host (R333). -/
theorem finishDiscovery_eq (n : Nat) (ok : Bool) (s : State) :
    ∃ s1 r, s1 = { s with cmdr := { s.cmdr with chainLength := BitVec.ofNat 8 n } } ∧
      r = commanderSend 255 .setChainLength [BitVec.ofNat 8 n] false s1 ∧
      finishDiscovery n ok s = { r with
        cmdr := { s1.cmdr with proc := .idle }, out := s.out ++ [.hostResult .begin ok] } := by
  obtain ⟨s1, r, hs1, hr, he⟩ := goIdle_announceLength_eq n s
  refine ⟨s1, r, hs1, hr, ?_⟩
  have hout : r.out = s.out := by rw [hr, commanderSend_out, hs1]
  rw [finishDiscovery, he, emit, ← hout]

/-- The address of a recovery, from the hop of its panic (R334). -/
theorem recoveryAddress_eq {hop : Byte} {a : Nat}
    (h : (hop.toNat ≤ 251 ∧ a = hop.toNat + 1) ∨ (hop = 252 ∧ a = 253) ∨ (253 ≤ hop.toNat ∧ a = 0)) :
    recoveryAddress hop = a := by
  obtain ⟨hle, rfl⟩ | ⟨rfl, rfl⟩ | ⟨hge, rfl⟩ := h
  · exact if_pos hle
  · decide
  · rw [recoveryAddress, if_neg (by omega), if_neg (by omega)]

/-- `start_recovery` with an address to assign (R334). -/
theorem startRecovery_of_assignable {s s1 : State} {a : Nat} (ha : recoveryAddress s.cmdr.panicHop = a)
    (hs1 : s1 = { s with cmdr := { s.cmdr with panicValid := false, recA := a } }) (hne : a ≠ 253) :
    startRecovery s =
      enter .recover .raWait (request addrNull .assignAddress [u8 a] (ack1 s.cfg) s1) := by
  subst ha hs1
  exact if_neg hne

/-- `start_recovery` after the hop 252 measures at once (R334). -/
theorem startRecovery_of_measured {s s1 : State} (ha : recoveryAddress s.cmdr.panicHop = 253)
    (hs1 : s1 = { s with cmdr := { s.cmdr with panicValid := false, recA := 253 } }) :
    startRecovery s = measureStart s1 := by
  subst hs1
  rw [← ha]
  exact if_pos ha

/-- While a procedure runs no latched panic starts a recovery (R325). -/
theorem recoverIfLatched_of_running {s : State} (h : s.cmdr.proc ≠ .idle) : recoverIfLatched s = s :=
  if_neg fun hidle => h hidle.1

/-! ## The wait -/

/-- An answer in the ring ends the wait (R323). -/
theorem resolveWait_of_answered {s : State} (hrun : s.cmdr.proc ≠ .idle) (h : Answered s) :
    resolveWait s = continueProc .success s := by
  obtain ⟨e, he, hv, hp, hk⟩ := h
  rw [resolveWait, if_neg hrun, waitResult_success he hv hp hk]

/-- Without an answer the deadline ends the wait, raising ACK_TIMEOUT (R323, R360). -/
theorem resolveWait_of_timedOut {s : State} (hrun : s.cmdr.proc ≠ .idle) (h : TimedOut s s.now) :
    resolveWait s = continueProc .failure (raise (.ackTimeout s.cmdr.waitPid) s) := by
  obtain ⟨hans, -⟩ | ⟨-, hw⟩ | ⟨hwait, -⟩ := waitResult_cases s
  · exact absurd hans h.1
  · rw [resolveWait, if_neg hrun, hw]
  · exact absurd hwait.2 (Nat.not_lt.mpr h.2)

/-- Before that the wait goes on (R323). -/
theorem resolveWait_of_stillWaiting {s : State} (hrun : s.cmdr.proc ≠ .idle) (h : StillWaiting s s.now) :
    resolveWait s = s := by
  obtain ⟨hans, -⟩ | ⟨hlate, -⟩ | ⟨-, hw⟩ := waitResult_cases s
  · exact absurd hans h.1
  · exact absurd h.2 (Nat.not_lt.mpr hlate.2)
  · rw [resolveWait, if_neg hrun, hw]

/-- A tick of a commander that waits: by how the wait stands at the tick's time (R325, R360). -/
theorem step_tick_of_running {s s1 f : State} {t : U32} {rest : List Event} (hi : s.inputs = .tick t :: rest)
    (hr : s.cfg.role = .commander) (ht : s.timeKnown = true → (t - s.now).toNat < 2 ^ 31)
    (hrun : s.cmdr.proc ≠ .idle)
    (hs1 : s1 = { s with now := t, timeKnown := true, out := [], raised := [], inputs := rest })
    (hf : f = raise (.ackTimeout s.cmdr.waitPid) s1) :
    (StillWaiting s t → step s = .next s1) ∧
      (Answered s → step s = .next (recoverIfLatched (continueProc .success s1))) ∧
      (TimedOut s t → step s = .next (recoverIfLatched (continueProc .failure f))) := by
  have hrun1 : s1.cmdr.proc ≠ .idle := by rw [hs1]; exact hrun
  rw [step_tick_commander hi hr ht, ← hs1, commanderTick]
  refine ⟨fun h => ?_, fun h => ?_, fun h => ?_⟩
  · have hwait : StillWaiting s1 s1.now := by rw [hs1]; exact h
    rw [resolveWait_of_stillWaiting hrun1 hwait, recoverIfLatched_of_running hrun1]
  · rw [resolveWait_of_answered hrun1 (by rw [hs1]; exact h)]
  · rw [resolveWait_of_timedOut hrun1 (by rw [hs1]; exact h), hf, hs1]

/-- With no procedure running a tick only looks at the latch (R325). -/
theorem commanderTick_of_idle {s : State} (h : s.cmdr.proc = .idle) :
    commanderTick s = recoverIfLatched s := by
  rw [commanderTick, resolveWait, if_pos h]

/-! ## The phases -/

theorem continueProc_of_aWait {s : State} (r : WaitResult) (h : s.cmdr.phase = .aWait) :
    continueProc r s = assignAnswered r s := by
  rw [continueProc, h]

theorem continueProc_of_eWait {s : State} (r : WaitResult) (h : s.cmdr.phase = .eWait) :
    continueProc r s = enableAnswered r s := by
  rw [continueProc, h]

theorem continueProc_of_raWait {s : State} (r : WaitResult) (h : s.cmdr.phase = .raWait) :
    continueProc r s = recoveryAssignAnswered r s := by
  rw [continueProc, h]

theorem continueProc_of_reWait {s : State} (r : WaitResult) (h : s.cmdr.phase = .reWait) :
    continueProc r s = recoveryEnableAnswered r s := by
  rw [continueProc, h]

theorem continueProc_of_mWait {s : State} (r : WaitResult) (h : s.cmdr.phase = .mWait) :
    continueProc r s = measureAnswered r s := by
  rw [continueProc, h]

theorem continueProc_of_sWait {s : State} (r : WaitResult) (h : s.cmdr.phase = .sWait) :
    continueProc r s = sendAnswered r s := by
  rw [continueProc, h]

/-! ## Discovery -/

/-- `begin()` at an idle commander runs at once (R350, R352). -/
theorem hostCall_begin {s : State} (h : s.cmdr.proc = .idle) :
    hostCall .begin s = .next (beginDiscovery s) := by
  rw [hostCall, if_neg (not_not_intro h)]
  rfl

theorem beginDiscovery_of_commander {s : State} (h : s.cfg.discoveryMode = .commander) :
    beginDiscovery s = assignNext (setI 0 (beginReset s)) := by
  rw [beginDiscovery, h]

theorem beginDiscovery_of_nodeToNode {s : State} (h : s.cfg.discoveryMode = .nodeToNode) :
    beginDiscovery s = emit (.hostResult .begin true) (beginReset s) := by
  rw [beginDiscovery, h]

/-- An address that can be assigned is asked for and awaited (R330). -/
theorem assignNext_of_ne {s : State} (h : s.cmdr.i ≠ 253) :
    assignNext s =
      enter .discover .aWait (request addrNull .assignAddress [u8 s.cmdr.i] (ack1 s.cfg) s) := if_neg h

/-- Settles O42: the RESET broadcast, then by DISCOVERY_MODE the first assignment or the report; under P1 with
room both packets are the frames written out. -/
theorem beginSendsResetAndFirstAssign : Obligations.BeginSendsResetAndFirstAssign := by
  refine ⟨fun s rest rs asg hi hr hp hm hidle hrs hasg hroom => ?frames,
    fun s s1 s2 rest hi hr hidle hs1 hs2 => ?modes⟩
  case frames =>
    rw [room_pair_iff] at hroom
    have hroom : s.txDown.length + (encodePacket s.cfg rs).length + (encodePacket s.cfg asg).length ≤
      s.cfg.txFifoDepth := hroom
    have hack : ack1 s.cfg = true := decide_eq_true hp
    rw [step_hostCall hi hr, hostCall_begin (by exact hidle), beginDiscovery_of_commander (by exact hm),
      beginReset, commanderSend_p1 (pkt := rs) (by exact hp) (by exact hrs) (by simp only; omega),
      assignNext_of_ne (by simp [setI]),
      request_p1 (pkt := asg) (by exact hp) (by rw [hasg, ← hack]; rfl)
        (by simp only [setI, List.length_append]; omega)]
    have hpid : s.pidCounter + 1 + 1 = s.pidCounter + 2 := by bv_omega
    exact ⟨_, rfl, rfl, hpid, rfl, rfl, rfl, rfl, rfl, rfl, rfl, rfl, rfl, rfl⟩
  case modes =>
    have hsent : beginReset { s with out := [], raised := [], inputs := rest } = s2 := by
      rw [beginReset, commanderSend_eq, hs2, hs1]; rfl
    have hout : s2.out = [] := by rw [← hsent]; simp [beginReset]
    rw [step_hostCall hi hr, hostCall_begin (by exact hidle)]
    refine ⟨fun hm => ?_, fun hm => ?_⟩
    · rw [beginDiscovery_of_commander (by exact hm), hsent, setI]
    · rw [beginDiscovery_of_nodeToNode (by exact hm), hsent, emit, hout, List.nil_append]

/-- Settles O43: the parts by their equations, then a tick by how the wait stands and the phase it stands in. -/
theorem discoveryPhases : Obligations.DiscoveryPhases := by
  refine ⟨fun s d n data ack => ⟨commanderSend_eq .., request_eq ..⟩,
    fun s => ⟨fun h => if_pos h, fun hne => ⟨_, rfl, assignNext_of_ne hne⟩⟩,
    fun s n ok => finishDiscovery_eq n ok s, fun s s1 f t rest hi hr hproc ht hs1 hf => ?tick⟩
  case tick =>
    have hwaits := waitsFor_iff s.cfg .enablePropagation
    obtain ⟨hwaiting, hanswered, htimedOut⟩ :=
      step_tick_of_running hi hr ht (by rw [hproc]; simp) hs1 hf
    subst hs1 hf
    refine ⟨hwaiting, fun hphase => ⟨fun h => ?aLate, fun h hw => ?aEnables, fun h hw => ?aNext⟩,
      fun hphase => ⟨fun h => ?eNext, fun h => ?eLate⟩⟩
    case aLate => rw [htimedOut h, continueProc_of_aWait _ (by exact hphase)]; rfl
    case aEnables =>
      refine ⟨_, rfl, ?_⟩
      rw [hanswered h, continueProc_of_aWait _ (by exact hphase), assignAnswered,
        if_pos (by exact hwaits.mpr hw), recoverIfLatched_of_running (by simp [enter])]
      rfl
    case aNext =>
      refine ⟨_, rfl, ?_⟩
      have hack : ack1 s.cfg = false := ack1_eq_false fun hp => hw (.inl hp)
      rw [hanswered h, continueProc_of_aWait _ (by exact hphase), assignAnswered,
        if_neg (by exact mt hwaits.mp hw), ← hack]
      rfl
    case eNext => rw [hanswered h, continueProc_of_eWait _ (by exact hphase)]; rfl
    case eLate => rw [htimedOut h, continueProc_of_eWait _ (by exact hphase)]; rfl

/-! ## Recovery and re-measurement -/

/-- An idle commander with a latched panic starts its recovery (R325). -/
theorem recoverIfLatched_of_latched {s : State} (hidle : s.cmdr.proc = .idle) (h : s.cmdr.panicValid = true) :
    recoverIfLatched s = startRecovery s := if_pos ⟨hidle, h⟩

/-- Settles O44: the tick looks at the latch, and the recovery's first request is the frame written out. -/
theorem panicStartsRecovery : Obligations.PanicStartsRecovery := by
  intro s t rest a asg hi hr hp hidle hvalid ht ha hasg hroom
  rw [room_singleton_iff] at hroom
  have haddr : recoveryAddress s.cmdr.panicHop = a := recoveryAddress_eq (ha.imp_right .inr)
  have hne : a ≠ 253 := by omega
  have hack : ack1 s.cfg = true := decide_eq_true hp
  rw [step_tick_commander hi hr ht, commanderTick_of_idle (by exact hidle),
    recoverIfLatched_of_latched (by exact hidle) (by exact hvalid),
    startRecovery_of_assignable (by exact haddr) rfl hne,
    request_p1 (pkt := asg) (by exact hp) (by rw [hasg, ← hack]; rfl) (by exact hroom)]
  exact ⟨_, rfl, rfl, rfl, rfl, rfl, rfl, rfl, rfl, rfl, rfl⟩

/-- Settles O45: the parts by their equations, then a tick of an idle commander, and of one that recovers by how the
wait stands and the phase it stands in. -/
theorem recoveryPhases : Obligations.RecoveryPhases := by
  refine ⟨fun s s1 a ha hs1 => ?start, fun s => ⟨rfl, fun h => if_pos h, fun hne => ⟨_, rfl, if_neg hne⟩,
    goIdle_announceLength_eq s.cmdr.i s, recoverIfLatched_of_latched, fun hnot => if_neg hnot⟩,
    fun s s1 f t rest hi hr ht hs1 hf => ?tick⟩
  case start =>
    have haddr := recoveryAddress_eq ha
    refine ⟨fun h253 => ?_, fun hne => ⟨_, rfl, startRecovery_of_assignable haddr hs1 hne⟩⟩
    subst h253
    exact startRecovery_of_measured haddr hs1
  case tick =>
    have hwaits := waitsFor_iff s.cfg .enablePropagation
    have hrunning : ∀ u, recoverIfLatched (measureStart u) = measureStart u := fun u =>
      recoverIfLatched_of_running (by rw [measureStart_eq]; simp [enter])
    have hidle : s.cmdr.proc = .idle → step s = .next (recoverIfLatched s1) := fun h => by
      rw [step_tick_commander hi hr ht, ← hs1, commanderTick_of_idle (by rw [hs1]; exact h)]
    have hrecover : s.cmdr.proc = .recover → _ := fun h =>
      step_tick_of_running hi hr ht (by rw [h]; simp) hs1 hf
    subst hs1 hf
    refine ⟨hidle, fun hproc => (hrecover hproc).1,
      fun hproc hphase => ⟨fun h => ?raLate, fun h hw => ?raEnables, fun h hw => ?raMeasures⟩,
      fun hproc hphase => ⟨fun h => ?reNext, fun h => ?reLate⟩,
      fun hproc hphase => ⟨fun h => ?mNext, fun h => ?mLate⟩⟩
    all_goals obtain ⟨-, hanswered, htimedOut⟩ := hrecover hproc
    case raLate =>
      rw [htimedOut h, continueProc_of_raWait _ (by exact hphase), recoveryAssignAnswered, hrunning]
    case raEnables =>
      refine ⟨_, rfl, ?_⟩
      rw [hanswered h, continueProc_of_raWait _ (by exact hphase), recoveryAssignAnswered,
        if_pos (by exact hwaits.mpr hw), recoverIfLatched_of_running (by simp [enter])]
      rfl
    case raMeasures =>
      have hack : ack1 s.cfg = false := ack1_eq_false fun hp => hw (.inl hp)
      rw [hanswered h, continueProc_of_raWait _ (by exact hphase), recoveryAssignAnswered,
        if_neg (by exact mt hwaits.mp hw), hrunning, ← hack]
      rfl
    case reNext =>
      rw [hanswered h, continueProc_of_reWait _ (by exact hphase), recoveryEnableAnswered, hrunning]
    case reLate =>
      rw [htimedOut h, continueProc_of_reWait _ (by exact hphase), recoveryEnableAnswered, hrunning]
    case mNext => rw [hanswered h, continueProc_of_mWait _ (by exact hphase)]; rfl
    case mLate => rw [htimedOut h, continueProc_of_mWait _ (by exact hphase)]; rfl

/-! ## The acknowledged send -/

/-- `send` keeps the error events raised before it (R88). -/
theorem raised_subset_send (p : Port) (pkt : Packet) (s : State) : s.raised ⊆ (send p pkt s).raised := by
  obtain ⟨-, he⟩ | ⟨-, he⟩ := send_cases p pkt s <;> rw [he] <;> simp

/-- A request keeps the error events raised before it. -/
theorem raised_subset_request (d : Byte) (n : CmdName) (data : List Byte) (ack : Bool) (s : State) :
    s.raised ⊆ (request d n data ack s).raised := by
  have hraised : (request d n data ack s).raised = (commanderSend d n data ack s).raised := by rw [request_eq]
  rw [hraised, commanderSend_eq, ← freshPid_raised s]
  exact raised_subset_send ..

/-- The start of a recovery makes one request, and keeps the error events raised before it. -/
theorem raised_subset_startRecovery (s : State) : s.raised ⊆ (startRecovery s).raised := by
  obtain ⟨s1, hs1, ⟨-, he⟩ | ⟨-, he⟩⟩ := startRecovery_cases s
  all_goals
    have hraised : s1.raised = s.raised := by rw [hs1]
    rw [← hraised, he]
  · rw [measureStart_eq, enter_raised]
    exact raised_subset_request 0 .probe [] false (setI 0 s1)
  · rw [enter_raised]
    exact raised_subset_request ..

/-- Looking at the latch reports nothing to the host (R325). -/
theorem recoverIfLatched_out (s : State) : (recoverIfLatched s).out = s.out := by
  obtain ⟨-, -, he⟩ | ⟨-, he⟩ := recoverIfLatched_cases s <;> rw [he]
  exact (startRecovery_enters s).2.1

/-- After an ended procedure the commander is idle or recovers (R325). -/
theorem recoverIfLatched_proc_of_idle {s : State} (h : s.cmdr.proc = .idle) :
    (recoverIfLatched s).cmdr.proc = .idle ∨ (recoverIfLatched s).cmdr.proc = .recover := by
  obtain ⟨-, -, he⟩ | ⟨-, he⟩ := recoverIfLatched_cases s <;> rw [he]
  · exact .inr (startRecovery_enters s).1
  · exact .inl h

/-- Settles O46: at the tick the wait is answered, timed out or pending; a failure latches the panic whose recovery
starts in the same step. -/
theorem acknowledgedSendNeverHangs : Obligations.AcknowledgedSendNeverHangs := by
  intro s t rest hi hr hproc hphase ht
  obtain ⟨hwaiting, hanswered, htimedOut⟩ :=
    step_tick_of_running hi hr (fun _ => ht) (by rw [hproc]; simp) rfl rfl
  refine ⟨fun h => ?answered, fun hnone => ?unanswered⟩
  case answered =>
    rw [hanswered h, continueProc_of_sWait _ (by exact hphase)]
    refine ⟨_, rfl, ?_, recoverIfLatched_out _⟩
    obtain he | he := recoverIfLatched_proc_of_idle (s := sendAnswered .success _) rfl <;> rw [he] <;> simp
  case unanswered =>
    have hnot : ¬Answered s := fun ⟨e, he, hv, hp, hk⟩ => by
      rw [hnone e he hv hp] at hk; cases hk
    refine ⟨fun hlate => ?_, fun hearly => ⟨_, hwaiting ⟨hnot, hearly⟩, rfl, rfl, rfl⟩⟩
    rw [htimedOut ⟨hnot, hlate⟩, continueProc_of_sWait _ (by exact hphase),
      recoverIfLatched_of_latched rfl rfl]
    refine ⟨_, rfl, ?_⟩
    obtain ⟨hrec, hout, -, hhop, -⟩ := startRecovery_enters
      (sendAnswered .failure (raise (.ackTimeout s.cmdr.waitPid)
        { s with now := t, timeKnown := true, out := [], raised := [], inputs := rest }))
    exact ⟨hrec, hout, raised_subset_startRecovery _ (List.mem_singleton_self _), hhop⟩

end Sys2Proof.Machine
end

section
/-! Obligations O47 and O48: the host's calls (44_commander.md R338, R350 to R352). An idle commander runs a call at
once; `hostCall_cases` says in which of three ways, and each is one equation. -/

namespace Sys2Proof.Machine

open Sys2Proof Host

/-! ## One command -/

/-- When a command's answer is awaited (R338): an ACK is asked for, of one node, which will answer. -/
theorem awaits_iff (cfg : Config) (d : Byte) (n : CmdName) (want : Bool) :
    (want = true ∧ d ≤ maxNodeAddress ∧ waitsFor cfg n = true) ↔
      (want = true ∧ d.toNat ≤ 252 ∧ (cfg.profile = .p1 ∨ n ∈ cfg.ackCommandsP2)) := by
  rw [waitsFor_iff, BitVec.le_def]
  rfl

/-- A command whose answer is awaited leaves an acknowledged send running (R338). -/
theorem commandCall_of_awaited {d : Byte} {n : CmdName} {data : List Byte} {want : Bool} {s : State}
    (h : want = true ∧ d.toNat ≤ 252 ∧ (s.cfg.profile = .p1 ∨ n ∈ s.cfg.ackCommandsP2)) :
    commandCall d n data want s = { commanderSend d n data (ack1 s.cfg && want) s with
      cmdr := { s.cmdr with
        ring := (s.cmdr.ring.map (clearPid (freshPid s).1)).set s.cmdr.ringW.val ⟨true, (freshPid s).1, false⟩
        ringW := s.cmdr.ringW + 1
        waitPid := (freshPid s).1
        waitStart := s.now
        waitDest := d
        proc := .sendWait
        phase := .sWait } } := by
  rw [commandCall, if_pos ((awaits_iff ..).mpr h), request_eq]
  rfl

/-- Any other command is sent and reported at once (R338). -/
theorem commandCall_of_not_awaited {d : Byte} {n : CmdName} {data : List Byte} {want : Bool} {s : State}
    (h : ¬(want = true ∧ d.toNat ≤ 252 ∧ (s.cfg.profile = .p1 ∨ n ∈ s.cfg.ackCommandsP2))) :
    commandCall d n data want s =
      emit (.hostResult .command true) (commanderSend d n data (ack1 s.cfg && want) s) := by
  rw [commandCall, if_neg (mt (awaits_iff ..).mp h)]

/-! ## Calls at an idle commander -/

/-- A call of one command that a packet can carry (R338, R350). -/
theorem hostCall_command {op : HostOp} {d : Byte} {n : CmdName} {data : List Byte} {want : Bool} {s : State}
    (hidle : s.cmdr.proc = .idle) (hc : hostCommand op = some (d, n, data, want)) (hl : data.length ≤ 255) :
    hostCall op s = .next (commandCall d n data want s) := by
  rw [hostCall, if_neg (not_not_intro hidle), acceptedHostCall_command hc, if_neg (Nat.not_lt.mpr hl)]

/-- A call of `set_string` (R352). -/
theorem hostCall_setString {str : List Byte} {s : State} (hidle : s.cmdr.proc = .idle) :
    hostCall (.setString str) s = .next (emit (.hostResult .setString true)
      (sendCharacters 0 (str.take (min str.length s.cmdr.chainLength.toNat)) s)) := by
  rw [hostCall, if_neg (not_not_intro hidle), acceptedHostCall]

/-- An output after none is the only one. -/
theorem emit_of_no_out (o : Output) {s : State} (h : s.out = []) : emit o s = { s with out := [o] } := by
  rw [emit, h, List.nil_append]

/-! ## The obligations -/

/-- What an accepted call leaves: a report, or a procedure that owes it (R351). -/
theorem hostCall_answers_or_owes {op : HostOp} {s t : State} (hidle : s.cmdr.proc = .idle)
    (hout : s.out = []) (h : hostCall op s = .next t) :
    (t.cmdr.proc = .idle ∧ ∃ n ok, t.out = [.hostResult n ok]) ∨ (t.cmdr.proc ≠ .idle ∧ t.out = []) := by
  obtain ⟨hbusy, -⟩ | ⟨-, d, n, data, w, -, -, rfl⟩ | ⟨-, -, rfl⟩ | ⟨-, str, -, rfl⟩ := hostCall_cases h
  · exact absurd hidle hbusy
  · by_cases hw : w = true ∧ d.toNat ≤ 252 ∧ (s.cfg.profile = .p1 ∨ n ∈ s.cfg.ackCommandsP2)
    · rw [commandCall_of_awaited hw]
      exact .inr ⟨by simp, by rw [commanderSend_out, hout]⟩
    · rw [commandCall_of_not_awaited hw]
      exact .inl ⟨by simp [hidle], .command, true, by simp [hout]⟩
  · have hreset : (beginReset s).out = [] := by simp [beginReset, hout]
    cases hm : s.cfg.discoveryMode with
    | commander =>
      rw [beginDiscovery_of_commander hm, assignNext_of_ne (by simp [setI])]
      exact .inr ⟨by simp [enter], by rw [enter_out, request_out, setI_out, hreset]⟩
    | nodeToNode =>
      rw [beginDiscovery_of_nodeToNode hm]
      exact .inl ⟨by simp [beginReset, hidle], .begin, true, by simp [hreset]⟩
  · exact .inl ⟨by simp [hidle], .setString, true, by simp [hout]⟩

/-- Settles O47: a running procedure refuses the call; otherwise it answers or owes. -/
theorem hostCallsAnswerOnce : Obligations.HostCallsAnswerOnce := by
  intro s op rest hi hr
  rw [step_hostCall hi hr]
  exact ⟨fun hbusy => if_pos hbusy, fun t hidle h => hostCall_answers_or_owes (by exact hidle) rfl h⟩

/-- Settles O48: the call's one packet, and whether its answer is awaited; `set_string`'s packets one by one. -/
theorem hostCommandSendsItsPacket : Obligations.HostCommandSendsItsPacket := by
  refine ⟨fun s s1 op rest d n data want hi hr hidle hc hl hs1 => ⟨_, rfl, fun hnot => ?sent, fun hw => ?awaited⟩,
    fun s str rest hi hr hidle => ⟨_, rfl, ?string⟩, fun s k => ⟨rfl, fun g str => rfl⟩⟩
  case sent =>
    subst hs1
    rw [step_hostCall hi hr, hostCall_command (by exact hidle) hc hl, commandCall_of_not_awaited (by exact hnot),
      emit_of_no_out _ (by rw [commanderSend_out])]
    rfl
  case awaited =>
    subst hs1
    rw [step_hostCall hi hr, hostCall_command (by exact hidle) hc hl, commandCall_of_awaited (by exact hw)]
    refine ⟨_, rfl, rfl, rfl, rfl, rfl, rfl, rfl, rfl, rfl, rfl, ?_, ?_⟩
    · rw [commanderSend_out]
    · rw [commanderSend_node]
  case string =>
    rw [step_hostCall hi hr, hostCall_setString (by exact hidle), emit_of_no_out _ (by rw [sendCharacters_out])]

end Sys2Proof.Machine
end

section
/-! Obligations O59 and O60: the chain (10_state.md R30, R67; 60_exceptions.md R374). A link leads to the neighbour
on one side, and transmitting is two deliveries, each of which writes one agent. -/

namespace Sys2Proof.Machine

open Sys2Proof Host

/-! ## Links -/

theorem chainLink_commander_down (n : Nat) :
    chainLink n .commander .down = if 0 < n then some (.node 0, .up) else none := rfl

theorem chainLink_head_up (n : Nat) :
    chainLink n (.node 0) .up = if 0 < n then some (.commander, .down) else none := rfl

theorem chainLink_succ_up (n k : Nat) :
    chainLink n (.node (k + 1)) .up = if k + 1 < n then some (.node k, .down) else none := rfl

theorem chainLink_node_down (n k : Nat) :
    chainLink n (.node k) .down = if k + 1 < n then some (.node (k + 1), .up) else none := by
  cases k <;> rfl

/-- Each kind of link, with the link that leads back (R30). -/
theorem chainLink_pairs {n : Nat} {a b : AgentId} {p q : Port} (h : chainLink n a p = some (b, q)) :
    chainLink n b q = some (a, p) ∧ a ≠ b ∧ q = p.other := by
  match a, p with
  | .commander, .up => cases h
  | .commander, .down =>
    rw [chainLink_commander_down, Option.ite_none_right_eq_some] at h
    obtain ⟨hn, heq⟩ := h
    obtain ⟨rfl, rfl⟩ : AgentId.node 0 = b ∧ Port.up = q := by simpa using heq
    exact ⟨by rw [chainLink_head_up, if_pos hn], by simp, rfl⟩
  | .node 0, .up =>
    rw [chainLink_head_up, Option.ite_none_right_eq_some] at h
    obtain ⟨hn, heq⟩ := h
    obtain ⟨rfl, rfl⟩ : AgentId.commander = b ∧ Port.down = q := by simpa using heq
    exact ⟨by rw [chainLink_commander_down, if_pos hn], by simp, rfl⟩
  | .node (k + 1), .up =>
    rw [chainLink_succ_up, Option.ite_none_right_eq_some] at h
    obtain ⟨hk, heq⟩ := h
    obtain ⟨rfl, rfl⟩ : AgentId.node k = b ∧ Port.down = q := by simpa using heq
    exact ⟨by rw [chainLink_node_down, if_pos hk], by simp, rfl⟩
  | .node k, .down =>
    rw [chainLink_node_down, Option.ite_none_right_eq_some] at h
    obtain ⟨hk, heq⟩ := h
    obtain ⟨rfl, rfl⟩ : AgentId.node (k + 1) = b ∧ Port.up = q := by simpa using heq
    exact ⟨by rw [chainLink_succ_up, if_pos hk], by simp, rfl⟩

/-- Settles O59: every link is one of the pairs. -/
theorem linksPairPorts : Obligations.LinksPairPorts :=
  fun _ _ _ _ _ _ h => chainLink_pairs h

/-! ## Agents of a chain -/

/-- Writing an agent that the chain has. -/
theorem chainAgent_setChainAgent_same {c : Chain} {a : AgentId} {s : State} (t : State)
    (h : chainAgent c a = some s) : chainAgent (setChainAgent c a t) a = some t := by
  cases a with
  | commander => rfl
  | node k =>
    obtain ⟨hk, -⟩ := List.getElem?_eq_some_iff.mp h
    exact List.getElem?_set_self hk

/-- Writing one agent leaves the others. -/
theorem chainAgent_setChainAgent_ne {c : Chain} {a d : AgentId} (t : State) (h : d ≠ a) :
    chainAgent (setChainAgent c a t) d = chainAgent c d := by
  cases a with
  | commander =>
    cases d with
    | commander => exact absurd rfl h
    | node k => rfl
  | node k =>
    cases d with
    | commander => rfl
    | node j => exact List.getElem?_set_ne fun hjk => h (by rw [hjk])

/-- A delivery is one step of the agent, and writes no other (R374, R94). -/
theorem deliver_eq_next {a : AgentId} {e : Event} {c c' : Chain} {s : State} (ha : chainAgent c a = some s)
    (h : deliver a e c = .next c') :
    ∃ t, step { s with inputs := e :: s.inputs } = .next t ∧ c' = setChainAgent c a t := by
  rw [deliver, ha] at h
  cases hs : step { s with inputs := e :: s.inputs } with
  | next t => exact ⟨t, rfl, by simpa [hs] using h.symm⟩
  | fault r => simp [hs] at h
  | refused r => simp [hs] at h

/-- A transmission along a link is a `tx_done` at the sender and the byte's arrival at the linked port (R67, R80). -/
theorem transmit_eq_next {c c' : Chain} {a a' : AgentId} {p p' : Port} {s : State} {b : Byte} {q : List Byte}
    (ha : chainAgent c a = some s) (hq : s.txq p = b :: q)
    (hl : chainLink c.nodes.length a p = some (a', p')) (h : transmit a p c = .next c') :
    ∃ c1, deliver a (.txDone p) c = .next c1 ∧ deliver a' (.rxByte p' b) c1 = .next c' := by
  rw [transmit, ha] at h
  simp only [Option.bind_some, hq, List.head?_cons, hl] at h
  cases hd : deliver a (.txDone p) c with
  | next c1 => exact ⟨c1, rfl, by simpa [hd] using h⟩
  | fault r => simp [hd] at h
  | refused r => simp [hd] at h

/-- The commander has no UP port to transmit from (R30, R41). -/
theorem step_txDone_up_of_commander {s : State} {rest : List Event} (hi : s.inputs = .txDone .up :: rest)
    (hr : s.cfg.role = .commander) : step s = .fault (.noSuchPort .up) := by
  rw [step_of_inputs hi]
  simp [handleEvent, hr]

/-- After `tx_done` the sender's FIFO has lost its head byte (R55). -/
theorem txq_of_txDone {s t : State} {p : Port} {b : Byte} {q : List Byte} (hq : s.txq p = b :: q)
    (h : step { s with inputs := .txDone p :: s.inputs } = .next t) : t.txq p = q := by
  by_cases hport : s.cfg.role = .commander → p = .down
  · have hstep := (transmissionTouchAndIdleSteps.1 { s with inputs := .txDone p :: s.inputs } p s.inputs rfl
      hport).1 b q (by cases p <;> exact hq)
    rw [hstep, Outcome.next.injEq] at h
    subst h
    cases p <;> rfl
  · obtain ⟨hr, hp⟩ := Classical.not_imp.mp hport
    cases p with
    | up => rw [step_txDone_up_of_commander rfl (by exact hr)] at h; cases h
    | down => exact absurd rfl hp

/-- Settles O60: the sender's step, then the receiver's, each writing one agent of the two. -/
theorem transmitMovesOneByte : Obligations.TransmitMovesOneByte := by
  intro c c' a a' p p' s r b q ha ha' hq hl h
  obtain ⟨c1, hsend, hrecv⟩ := transmit_eq_next ha hq hl h
  obtain ⟨s', hs', rfl⟩ := deliver_eq_next ha hsend
  have hne : a' ≠ a := (chainLink_pairs hl).2.1.symm
  have hr1 : chainAgent (setChainAgent c a s') a' = some r := (chainAgent_setChainAgent_ne s' hne).trans ha'
  obtain ⟨r', hr', rfl⟩ := deliver_eq_next hr1 hrecv
  refine ⟨⟨s', ?_, txq_of_txDone hq hs'⟩, ⟨r', hr', chainAgent_setChainAgent_same r' hr1⟩, fun d hda hda' => ?_⟩
  · rw [chainAgent_setChainAgent_ne r' hne.symm, chainAgent_setChainAgent_same s' ha]
  · rw [chainAgent_setChainAgent_ne r' hda', chainAgent_setChainAgent_ne s' hda]

end Sys2Proof.Machine
end
